-- ==== Sys2Proof/Word.lean ====
section
/-! DEFINITION. The word and the sixteen-word block of the engine (00_scope R5, R8). -/

namespace Sys2Proof

/-- An unsigned 32-bit word (00_scope R8: bit 0 is the least significant). -/
abbrev Word := BitVec 32

/-- A byte of the wire or of the keystream, host side only (20_memory R52, 44_endianness R185). -/
abbrev Byte := BitVec 8

/-- A 16-word state, word 0 first (00_scope R11; 10_state R21). -/
abbrev Block := Vector Word 16

end Sys2Proof
end

