-- ==== Sys2Proof/Machine/Datapath.lean ====
section
/-! DEFINITION. The datapath as pure functions: the ARX primitives (40), the quarter round (41), the schedule multiplexer and
the rounds (42), the final accumulator and the block transform (43). No function here reads or writes the state. -/

namespace Sys2Proof.Machine

/-- The 16-word state whose word `i` is `f i`. -/
def tabulate (f : Fin 16 → Word) : Block :=
  #v[f 0, f 1, f 2, f 3, f 4, f 5, f 6, f 7, f 8, f 9, f 10, f 11, f 12, f 13, f 14, f 15]

/-! ### The ARX primitives (40_arx_primitives) -/

/-- ADD32: `(x + y) mod 2^32`, the exact sum narrowed, carry discarded (R110). -/
def add32 (x y : Word) : Word := BitVec.ofNat 32 ((x.toNat + y.toNat) % 2 ^ 32)

/-- XOR32: bitwise exclusive or (R111). -/
def xor32 (x y : Word) : Word := x ^^^ y

/-- ROTL32: `((v << n) mod 2^32) | (v >> (32 - n))`, for `0 < n < 32` (R112). -/
def rotl32 (v : Word) (n : Nat) : Word :=
  BitVec.ofNat 32 ((v.toNat * 2 ^ n % 2 ^ 32) ||| (v.toNat / 2 ^ (32 - n)))

/-! ### The quarter round (41_quarter_round) -/

/-- Four words in the positions `a`, `b`, `c`, `d` of a quarter round. -/
structure Quad where
  a : Word
  b : Word
  c : Word
  d : Word
  deriving DecidableEq, Repr

/-- QR: twelve lines, each reading the values left by the lines before it (R130). -/
def qr (a b c d : Word) : Quad :=
  let a := add32 a b
  let d := xor32 d a
  let d := rotl32 d 16
  let c := add32 c d
  let b := xor32 b c
  let b := rotl32 b 12
  let a := add32 a b
  let d := xor32 d a
  let d := rotl32 d 8
  let c := add32 c d
  let b := xor32 b c
  let b := rotl32 b 7
  ⟨a, b, c, d⟩

/-- The lines of QR undone from the last to the first (R135). No part of the engine: a law's other half. -/
def qrInv (a b c d : Word) : Quad :=
  let b := rotl32 b 25
  let b := xor32 b c
  let c := c - d
  let d := rotl32 d 24
  let d := xor32 d a
  let a := a - b
  let b := rotl32 b 20
  let b := xor32 b c
  let c := c - d
  let d := rotl32 d 16
  let d := xor32 d a
  let a := a - b
  ⟨a, b, c, d⟩

/-- A position of a quad. -/
inductive Pos where
  | a
  | b
  | c
  | d
  deriving DecidableEq, Repr

/-- One of the twelve wired operations of QR (R132). -/
inductive MicroOp where
  | add (dst src : Pos)
  | xor (dst src : Pos)
  | rotl (dst : Pos) (n : Nat)
  deriving DecidableEq, Repr

/-- The word at a position. -/
def Quad.get (q : Quad) : Pos → Word
  | .a => q.a
  | .b => q.b
  | .c => q.c
  | .d => q.d

/-- The quad with the word at one position replaced. -/
def Quad.put (q : Quad) (p : Pos) (v : Word) : Quad :=
  match p with
  | .a => { q with a := v }
  | .b => { q with b := v }
  | .c => { q with c := v }
  | .d => { q with d := v }

/-- The effect of one wired operation on the four words (R132). -/
def MicroOp.run (q : Quad) : MicroOp → Quad
  | .add dst src => q.put dst (add32 (q.get dst) (q.get src))
  | .xor dst src => q.put dst (xor32 (q.get dst) (q.get src))
  | .rotl dst n => q.put dst (rotl32 (q.get dst) n)

/-- The wiring of the twelve operations, `t` = 1 to 12 (R132, with the rotation amounts of 40_arx_primitives R113). -/
def qrWiring : List MicroOp :=
  [.add .a .b, .xor .d .a, .rotl .d 16, .add .c .d, .xor .b .c, .rotl .b 12,
   .add .a .b, .xor .d .a, .rotl .d 8, .add .c .d, .xor .b .c, .rotl .b 7]

/-! ### The schedule multiplexer and the rounds (42_rounds_and_schedule) -/

/-- The four register indices that feed one lane of the mixer. -/
structure Lane where
  ia : Fin 16
  ib : Fin 16
  ic : Fin 16
  id : Fin 16
  deriving DecidableEq, Repr

/-- The schedule multiplexer `IDX(sel, j)` (R140): `sel = 0` the column table (R141), `sel = 1` the diagonal table (R142). -/
def laneIndex (sel : Bool) (j : Fin 4) : Lane :=
  match sel, j with
  | false, 0 => ⟨0, 4, 8, 12⟩
  | false, 1 => ⟨1, 5, 9, 13⟩
  | false, 2 => ⟨2, 6, 10, 14⟩
  | false, 3 => ⟨3, 7, 11, 15⟩
  | true, 0 => ⟨0, 5, 10, 15⟩
  | true, 1 => ⟨1, 6, 11, 12⟩
  | true, 2 => ⟨2, 7, 8, 13⟩
  | true, 3 => ⟨3, 4, 9, 14⟩

/-- The four words of a lane. -/
def laneRead (X : Block) (l : Lane) : Quad := ⟨X[l.ia], X[l.ib], X[l.ic], X[l.id]⟩

/-- Four words written back to the registers of a lane, in the same positions (R140). -/
def laneWrite (Y : Block) (l : Lane) (q : Quad) : Block :=
  (((Y.set l.ia q.a).set l.ib q.b).set l.ic q.c).set l.id q.d

/-- QR on the four words of a lane as `X` holds them. -/
def laneQr (sel : Bool) (X : Block) (j : Fin 4) : Quad :=
  let q := laneRead X (laneIndex sel j)
  qr q.a q.b q.c q.d

/-- One round: `Y[ia], Y[ib], Y[ic], Y[id] = QR(X[ia], X[ib], X[ic], X[id])` for each lane, all four reading `X`
(R143, R144, R151). -/
def mixRound (sel : Bool) (X : Block) : Block :=
  [0, 1, 2, 3].foldl (fun Y j => laneWrite Y (laneIndex sel j) (laneQr sel X j)) X

/-- COLROUND (R143). -/
def colround (X : Block) : Block := mixRound false X

/-- DIAGROUND (R144). -/
def diaground (X : Block) : Block := mixRound true X

/-- One lane evaluated in place, reading what the lanes before it left: one turn of a single physical mixer (R147). -/
def mixLane (sel : Bool) (X : Block) (j : Fin 4) : Block :=
  laneWrite X (laneIndex sel j) (laneQr sel X j)

/-- A round whose lanes are evaluated in place one after another in the order given (R147). -/
def mixInOrder (sel : Bool) (order : List (Fin 4)) (X : Block) : Block := order.foldl (mixLane sel) X

/-- `ROUND(k, X)`: a column round if `k` is even, a diagonal round if `k` is odd (R148). -/
def roundFn (k : Nat) (X : Block) : Block := if k % 2 = 0 then colround X else diaground X

/-- `DOUBLEROUND(X) = DIAGROUND(COLROUND(X))` (R148). -/
def doubleround (X : Block) : Block := diaground (colround X)

/-- `ROUNDS(X, n)`: the state after the first `n` rounds (R146). -/
def roundsFn (X : Block) : Nat → Block
  | 0 => X
  | n + 1 => roundFn n (roundsFn X n)

/-! ### The block transform (43_block_transform) -/

/-- `FINALADD(X, Y)[i] = ADD32(X[i], Y[i])`: sixteen independent additions (R163). -/
def finaladd (X Y : Block) : Block := tabulate fun i => add32 X[i] Y[i]

/-- `BLOCK(X) = FINALADD(X, ROUNDS(X, 20))` (R164). -/
def blockFn (X : Block) : Block := finaladd X (roundsFn X 20)

end Sys2Proof.Machine
end

