-- ==== Sys2Proof/Machine/HostSide.lean ====
section
/-! DEFINITION. Host-side functions and data: no register, command or micro-operation performs them (44_endianness, 00_scope
R4 (c)). Where the spec marks a formula as general knowledge (20_memory R52, 44_endianness R185): log entry 20. -/

namespace Sys2Proof.Machine

/-- The constants table `CHACHA_CONST[0..3]`, reference data for the host (10_state R22). -/
def chachaConst : Vector Word 4 := #v[0x61707865, 0x3320646e, 0x79622d32, 0x6b206574]

/-- BSWAP32: the four bytes of a word reversed, by the masks and shifts of 44_endianness R180. -/
def bswap32 (w : Word) : Word :=
  ((w &&& 0xFF#32) <<< 24) ||| ((w &&& 0xFF00#32) <<< 8) ||| ((w &&& 0xFF0000#32) >>> 8) ||| ((w &&& 0xFF000000#32) >>> 24)

/-- The word whose wire bytes are `p0, p1, p2, p3`: byte `k` is bits `8k+7` down to `8k` (20_memory R52, 44_endianness R184). -/
def wireWord (p0 p1 p2 p3 : Byte) : Word := p3 ++ p2 ++ p1 ++ p0

/-- The literal that shows the same wire bytes in reading order (44_endianness R184). -/
def literalWord (p0 p1 p2 p3 : Byte) : Word := p0 ++ p1 ++ p2 ++ p3

/-- The initial state a host builds from its literals `L[4..15]`: constants unconverted, the rest byte-swapped
(44_endianness R183). -/
def initialState (L : Vector Word 12) : Block :=
  tabulate fun i => if h : i.val < 4 then chachaConst[i.val] else bswap32 L[i.val - 4]

/-- Keystream byte `4*i + k` of an output block: bits `8k+7 : 8k` of `OUT[i]` (44_endianness R185). -/
def keystreamByte (o : Block) (i : Fin 16) (k : Fin 4) : Byte := o[i].extractLsb' (8 * k.val) 8

/-- The 64 keystream bytes in order (44_endianness R185). -/
def keystream (o : Block) : List Byte :=
  o.toList.flatMap fun w => [w.extractLsb' 0 8, w.extractLsb' 8 8, w.extractLsb' 16 8, w.extractLsb' 24 8]

end Sys2Proof.Machine
end

