-- ==== Sys2Proof/Config.lean ====
section
/-! DEFINITION. What the spec leaves open: the free values a RESET draws.
The other open parameters of 92_eei_decisions.md (`NQR`, `T_BLOCK`, `BASE`) influence no rule; log entry 12. -/

namespace Sys2Proof

/-- The word that the `n`-th draw of a RESET yields (10_state R33, 93_implementation_defined U1: any value, under no law).
No body: nothing can be proved of its values. One sequence for every engine is the model's choice: log entry 2. -/
opaque Config.resetDraw : Nat → Word

end Sys2Proof
end

