-- ==== Sys2Proof/Syntax.lean ====
section
/-! DEFINITION. The operations of `opcode_table.json`, one constructor per mnemonic, and the operations a host program holds. -/

namespace Sys2Proof

/-- One constructor per mnemonic of the opcode table, in its order: the host commands (format BUS), the micro-operations
(format SEQ), the agents' steps (format STEP), the functions (format FUNC), the pseudo-instructions (format PSEUDO). -/
inductive Instr where
  -- BUS, 30_encoding R83. `i` is the register index `addr[3:0]`, `v` the value `wdata`, `a` the whole 6-bit address.
  | rdState (i : Fin 16)
  | wrState (i : Fin 16) (v : Word)
  | rdOut (i : Fin 16)
  | wrOut (i : Fin 16) (v : Word)
  | rdCtrl
  | start
  | wrCtrlNop
  | rdStatus
  | wrStatus (v : Word)
  | rdRsvd (a : BitVec 6)
  | wrRsvd (a : BitVec 6) (v : Word)
  -- SEQ, 30_encoding R90, R91. `k` is the 5-bit index, the value of `rnd`.
  | colround (k : BitVec 5)
  | diaground (k : BitVec 5)
  | finaladd
  | seqRsvd (k : BitVec 5)
  -- STEP, 43_block_transform R167, R168; 70_reset_and_hazards R250.
  | eRound
  | eFinal
  | reset
  -- FUNC, 30_encoding R97. The operands are the function's own.
  | add32 (x y : Word)
  | xor32 (x y : Word)
  | rotl32 (v : Word) (n : Nat)
  | qr (a b c d : Word)
  | round (k : Fin 20) (x : Block)
  | doubleround (x : Block)
  | rounds (x : Block) (n : Fin 21)
  | copy
  | block (x : Block)
  | bswap32 (w : Word)
  -- PSEUDO, 30_encoding R96.
  | loadstate (ws : Block)
  | poll
  | readout
  | runblock
  | setctr (c : Word)
  deriving DecidableEq, Repr

/-- What a program of the HOST agent is made of: command words of the BUS format (30_encoding R81), the pseudo-instructions
(R96), and the byte swap the host applies on its own side (44_endianness R182). Log entry 3. -/
inductive HostOp where
  | command (w : BitVec 39)
  | loadstate (ws : Block)
  | poll
  | readout
  | runblock
  | setctr (c : Word)
  | bswap32 (w : Word)
  deriving DecidableEq, Repr

/-- An encoded operation: a 39-bit command word or a 5-bit micro-program index (30_encoding R80: the only two formats). -/
inductive Encoded where
  | bus (w : BitVec 39)
  | seq (k : BitVec 5)
  deriving DecidableEq, Repr

/-- One line of a host program in the notation of 30_encoding R95. -/
inductive AsmLine where
  | wrState (i : Fin 16) (v : Word)   -- WR STATE[i], v
  | rdState (i : Fin 16)              -- RD STATE[i]
  | rdOut (i : Fin 16)                -- RD OUT[i]
  | wrOut (i : Fin 16) (v : Word)     -- WR OUT[i], v
  | start                             -- START
  | wrCtrl (v : Word)                 -- WR CTRL, v
  | rdCtrl                            -- RD CTRL
  | rdStatus                          -- RD STATUS
  | wrStatus (v : Word)               -- WR STATUS, v
  | wrRaw (a : BitVec 6) (v : Word)   -- WR @a, v
  | rdRaw (a : BitVec 6)              -- RD @a
  deriving DecidableEq, Repr

/-- The mnemonic of the opcode table, letter for letter. -/
def Instr.mnemonic : Instr → String
  | .rdState _ => "RD_STATE"
  | .wrState _ _ => "WR_STATE"
  | .rdOut _ => "RD_OUT"
  | .wrOut _ _ => "WR_OUT"
  | .rdCtrl => "RD_CTRL"
  | .start => "START"
  | .wrCtrlNop => "WR_CTRL_NOP"
  | .rdStatus => "RD_STATUS"
  | .wrStatus _ => "WR_STATUS"
  | .rdRsvd _ => "RD_RSVD"
  | .wrRsvd _ _ => "WR_RSVD"
  | .colround _ => "COLROUND"
  | .diaground _ => "DIAGROUND"
  | .finaladd => "FINALADD"
  | .seqRsvd _ => "SEQ_RSVD"
  | .eRound => "E-ROUND"
  | .eFinal => "E-FINAL"
  | .reset => "RESET"
  | .add32 _ _ => "ADD32"
  | .xor32 _ _ => "XOR32"
  | .rotl32 _ _ => "ROTL32"
  | .qr _ _ _ _ => "QR"
  | .round _ _ => "ROUND"
  | .doubleround _ => "DOUBLEROUND"
  | .rounds _ _ => "ROUNDS"
  | .copy => "COPY"
  | .block _ => "BLOCK"
  | .bswap32 _ => "BSWAP32"
  | .loadstate _ => "LOADSTATE"
  | .poll => "POLL"
  | .readout => "READOUT"
  | .runblock => "RUNBLOCK"
  | .setctr _ => "SETCTR"

end Sys2Proof
end

