-- ==== Sys2Proof/WellFormed.lean ====
section
/-! DEFINITION. When an operation is one the spec gives: the checks its operand types do not already make. -/

namespace Sys2Proof

/-- The well-formed operations. Reserved addresses are `0x22` to `0x3F` (20_memory R51); COLROUND sits at the even indices
0 to 18, DIAGROUND at the odd ones 1 to 19, no entry at 21 to 31 (30_encoding R90, R91); ROTL32 is defined for amounts
1 to 31 (40_arx_primitives R112). -/
def Instr.wf : Instr → Bool
  | .rdState _ => true
  | .wrState _ _ => true
  | .rdOut _ => true
  | .wrOut _ _ => true
  | .rdCtrl => true
  | .start => true
  | .wrCtrlNop => true
  | .rdStatus => true
  | .wrStatus _ => true
  | .rdRsvd a => decide (0x22 ≤ a.toNat)
  | .wrRsvd a _ => decide (0x22 ≤ a.toNat)
  | .colround k => decide (k.toNat < 20) && !k.getLsbD 0
  | .diaground k => decide (k.toNat < 20) && k.getLsbD 0
  | .finaladd => true
  | .seqRsvd k => decide (21 ≤ k.toNat)
  | .eRound => true
  | .eFinal => true
  | .reset => true
  | .add32 _ _ => true
  | .xor32 _ _ => true
  | .rotl32 _ n => decide (0 < n) && decide (n < 32)
  | .qr _ _ _ _ => true
  | .round _ _ => true
  | .doubleround _ => true
  | .rounds _ _ => true
  | .copy => true
  | .block _ => true
  | .bswap32 _ => true
  | .loadstate _ => true
  | .poll => true
  | .readout => true
  | .runblock => true
  | .setctr _ => true

end Sys2Proof
end

