-- ==== Sys2Proof/Decode.lean ====
section
/-! DEFINITION. Decoding and encoding of the two formats, BUS and SEQ (30_encoding R80 to R91), the assembler notation (R95)
and the operations of a host program as instructions (R96). -/

namespace Sys2Proof

/-! ### Fields of a command word (30_encoding R81, R82) -/

/-- `we`, bit 38: 1 is a write. -/
def busWe (w : BitVec 39) : Bool := w.getLsbD 38

/-- `addr`, bits 37:32. -/
def busAddr (w : BitVec 39) : BitVec 6 := w.extractLsb' 32 6

/-- `wdata`, bits 31:0. -/
def busWdata (w : BitVec 39) : Word := w.extractLsb' 0 32

/-- The command word `we * 2^38 + addr * 2^32 + wdata`. -/
def busWord (we : Bool) (addr : BitVec 6) (wdata : Word) : BitVec 39 := BitVec.ofBool we ++ addr ++ wdata

/-- `region = addr[5:4]`. -/
def addrRegion (addr : BitVec 6) : BitVec 2 := addr.extractLsb' 4 2

/-- The register index `i = addr[3:0]`, used as is. -/
def addrIndex (addr : BitVec 6) : Fin 16 := ⟨(addr.extractLsb' 0 4).toNat, (addr.extractLsb' 0 4).isLt⟩

/-- The address of STATE[i], `00iiii` (20_memory R51). -/
def stateAddr (i : Fin 16) : BitVec 6 := BitVec.ofNat 6 i.val

/-- The address of OUT[i], `01iiii` (20_memory R51). -/
def outAddr (i : Fin 16) : BitVec 6 := BitVec.ofNat 6 (0x10 + i.val)

/-! ### Decoding -/

/-- The row a command word decodes to; total over all 39-bit words (30_encoding R82, R83). -/
def decodeBus (w : BitVec 39) : Instr :=
  if addrRegion (busAddr w) = 0b00#2 then
    if busWe w then .wrState (addrIndex (busAddr w)) (busWdata w) else .rdState (addrIndex (busAddr w))
  else if addrRegion (busAddr w) = 0b01#2 then
    if busWe w then .wrOut (addrIndex (busAddr w)) (busWdata w) else .rdOut (addrIndex (busAddr w))
  else if busAddr w = 0x20#6 then
    if busWe w then (if (busWdata w).getLsbD 0 then .start else .wrCtrlNop) else .rdCtrl
  else if busAddr w = 0x21#6 then
    if busWe w then .wrStatus (busWdata w) else .rdStatus
  else
    if busWe w then .wrRsvd (busAddr w) (busWdata w) else .rdRsvd (busAddr w)

/-- The entry of the micro-program at index `k` (30_encoding R90; R91 for the indices without an entry). -/
def decodeSeq (k : BitVec 5) : Instr :=
  if k.toNat < 20 then (if k.getLsbD 0 then .diaground k else .colround k)
  else if k.toNat = 20 then .finaladd
  else .seqRsvd k

/-- Decoding of an encoded operation. -/
def decode : Encoded → Instr
  | .bus w => decodeBus w
  | .seq k => decodeSeq k

/-- Why a string of bits is no operation: the spec has two lengths, 39 and 5 bits (30_encoding R80). -/
inductive Reject where
  /-- A number of bits that is neither format's. -/
  | length (nbits : Nat)
  /-- A bit above the format's width is set (30_encoding R81: "the top bit always 0"). -/
  | topBits (w : Nat)
  deriving DecidableEq, Repr

/-- Decoding of the number `w` held in `nbits` bits: up to 8 bits is a micro-program index, 33 to 40 bits a command word
(formats of 5 and 39 bits in whole bytes); every other length and every set bit above the format is rejected by name.
Log entry 17. -/
def decodeBits (nbits w : Nat) : Except Reject Instr :=
  if nbits ≤ 8 then
    if w < 32 then .ok (decodeSeq (BitVec.ofNat 5 w)) else .error (.topBits w)
  else if 33 ≤ nbits ∧ nbits ≤ 40 then
    if w < 2 ^ 39 then .ok (decodeBus (BitVec.ofNat 39 w)) else .error (.topBits w)
  else .error (.length nbits)

/-- What the decoder reads from a word of the opcode table's numbering. -/
def decodeTableWord (nbits w : Nat) : Option Instr :=
  match decodeBits nbits w with
  | .ok i => some i
  | .error _ => none

/-! ### Encoding -/

/-- The canonical word of an operation that has an encoding (30_encoding R83, R84, R90); none for the formats STEP, FUNC and
PSEUDO (R97). -/
def encode : Instr → Option Encoded
  | .rdState i => some (.bus (busWord false (stateAddr i) 0))
  | .wrState i v => some (.bus (busWord true (stateAddr i) v))
  | .rdOut i => some (.bus (busWord false (outAddr i) 0))
  | .wrOut i v => some (.bus (busWord true (outAddr i) v))
  | .rdCtrl => some (.bus (busWord false 0x20 0))
  | .start => some (.bus (busWord true 0x20 1))
  | .wrCtrlNop => some (.bus (busWord true 0x20 0))
  | .rdStatus => some (.bus (busWord false 0x21 0))
  | .wrStatus v => some (.bus (busWord true 0x21 v))
  | .rdRsvd a => some (.bus (busWord false a 0))
  | .wrRsvd a v => some (.bus (busWord true a v))
  | .colround k => some (.seq k)
  | .diaground k => some (.seq k)
  | .finaladd => some (.seq 20)
  | .seqRsvd k => some (.seq k)
  | .eRound => none
  | .eFinal => none
  | .reset => none
  | .add32 _ _ => none
  | .xor32 _ _ => none
  | .rotl32 _ _ => none
  | .qr _ _ _ _ => none
  | .round _ _ => none
  | .doubleround _ => none
  | .rounds _ _ => none
  | .copy => none
  | .block _ => none
  | .bswap32 _ => none
  | .loadstate _ => none
  | .poll => none
  | .readout => none
  | .runblock => none
  | .setctr _ => none

/-! ### The opcode map as rows of mask and match (30_encoding R83, R90, R91) -/

/-- A row of the map over words of `n` bits: it holds the words `w` with `w & mask = match`. -/
structure Row (n : Nat) where
  mnemonic : String
  mask : BitVec n
  value : BitVec n
  deriving DecidableEq, Repr

/-- A word fits a row. -/
def Row.fits {n : Nat} (r : Row n) (w : BitVec n) : Bool := w &&& r.mask == r.value

/-- The seventeen BUS rows. -/
def busRows : List (Row 39) :=
  [⟨"RD_STATE", 0x7000000000, 0x0000000000⟩,
   ⟨"WR_STATE", 0x7000000000, 0x4000000000⟩,
   ⟨"RD_OUT", 0x7000000000, 0x1000000000⟩,
   ⟨"WR_OUT", 0x7000000000, 0x5000000000⟩,
   ⟨"RD_CTRL", 0x7F00000000, 0x2000000000⟩,
   ⟨"START", 0x7F00000001, 0x6000000001⟩,
   ⟨"WR_CTRL_NOP", 0x7F00000001, 0x6000000000⟩,
   ⟨"RD_STATUS", 0x7F00000000, 0x2100000000⟩,
   ⟨"WR_STATUS", 0x7F00000000, 0x6100000000⟩] ++
  [⟨"RD_RSVD", 0x7E00000000, 0x2200000000⟩,
   ⟨"RD_RSVD", 0x7C00000000, 0x2400000000⟩,
   ⟨"RD_RSVD", 0x7800000000, 0x2800000000⟩,
   ⟨"RD_RSVD", 0x7000000000, 0x3000000000⟩,
   ⟨"WR_RSVD", 0x7E00000000, 0x6200000000⟩,
   ⟨"WR_RSVD", 0x7C00000000, 0x6400000000⟩,
   ⟨"WR_RSVD", 0x7800000000, 0x6800000000⟩,
   ⟨"WR_RSVD", 0x7000000000, 0x7000000000⟩]

/-- The eight SEQ rows. -/
def seqRows : List (Row 5) :=
  [⟨"COLROUND", 0b10001, 0b00000⟩,
   ⟨"COLROUND", 0b11101, 0b10000⟩,
   ⟨"DIAGROUND", 0b10001, 0b00001⟩,
   ⟨"DIAGROUND", 0b11101, 0b10001⟩,
   ⟨"FINALADD", 0b11111, 0b10100⟩,
   ⟨"SEQ_RSVD", 0b11111, 0b10101⟩,
   ⟨"SEQ_RSVD", 0b11110, 0b10110⟩,
   ⟨"SEQ_RSVD", 0b11000, 0b11000⟩]

/-! ### Host programs (30_encoding R95, R96) -/

/-- The command word of an assembler line (30_encoding R95). -/
def assemble : AsmLine → BitVec 39
  | .wrState i v => busWord true (stateAddr i) v
  | .rdState i => busWord false (stateAddr i) 0
  | .rdOut i => busWord false (outAddr i) 0
  | .wrOut i v => busWord true (outAddr i) v
  | .start => 0x6000000001
  | .wrCtrl v => busWord true 0x20 v
  | .rdCtrl => 0x2000000000
  | .rdStatus => 0x2100000000
  | .wrStatus v => busWord true 0x21 v
  | .wrRaw a v => busWord true a v
  | .rdRaw a => busWord false a 0

/-- The operation of one item of a host program: a command word is decoded, the others have no encoding. -/
def HostOp.instr : HostOp → Instr
  | .command w => decodeBus w
  | .loadstate ws => .loadstate ws
  | .poll => .poll
  | .readout => .readout
  | .runblock => .runblock
  | .setctr c => .setctr c
  | .bswap32 w => .bswap32 w

end Sys2Proof
end

