-- ==== Sys2Proof/Machine/State.lean ====
section
/-! DEFINITION. The state of one engine and of the agents around it, the ways a step can stop, and the state after reset. -/

namespace Sys2Proof.Machine

/-- Why the machine stops with a fault. -/
inductive Fault where
  /-- The ENGINE is given a step while `BUSY = 1` and `rnd` is one of the indices 21 to 31, which have no micro-program
  entry (30_encoding R91, 93_implementation_defined U5 "stuck"). Raised by the meaning of SEQ_RSVD. Safe: the spec gives
  no effect. Log entry 9. -/
  | engineStuck
  deriving DecidableEq, Repr

/-- Why an operation has no meaning. -/
inductive Refusal where
  /-- An instruction without a meaning in this model. Raised by no arm of `exec` as it stands. Safe. -/
  | notModelled (mnemonic : String)
  /-- ROTL32 by an amount outside 1 to 31 (40_arx_primitives R112, 93_implementation_defined U3 "refuse"). Raised by the
  meaning of ROTL32. Safe. Log entry 8. -/
  | rotateAmount
  /-- `MemRead` or `MemWrite` of a size other than one word (20_memory R53 "a model refuses them"). Raised by `memRead` and
  `memWrite`. Safe. Log entry 16. -/
  | accessWidth
  deriving DecidableEq, Repr

/-- The five protocol violations (60_exceptions R222). -/
inductive Violation where
  | wrStateBusy
  | startBusy
  | rdOutNotDone
  | wrReadOnly
  | reservedAddr
  deriving DecidableEq, Repr

/-- Whose step comes next in the total sequence of steps (20_memory R60): a host command, an ENGINE step, a reset. -/
inductive Turn where
  | host
  | engine
  | reset
  deriving DecidableEq, Repr

/-- The complete state of one engine (10_state R20: `S`, `W`, `OUT`, `rnd`, `BUSY`, `DONE`, `ERR`, `CAUSE`) and, after it, the
model's own fields: the agents around the engine and what they have received (log entries 2, 3, 4, 6, 7). -/
structure State where
  /-- `S[0..15]`, the state register file (R21). -/
  S : Block
  /-- `W[0..15]`, the working registers, hidden (R23). -/
  W : Block
  /-- `OUT[0..15]`, the output registers (R24). -/
  OUT : Block
  /-- The hidden 5-bit round counter, the only program counter (R27). -/
  rnd : BitVec 5
  /-- A transform runs (R26). -/
  BUSY : Bool
  /-- `OUT` holds a finished result (R26). -/
  DONE : Bool
  /-- A violation has been recorded since reset; sticky (R28). -/
  ERR : Bool
  /-- The code of the first violation since reset (R28). -/
  CAUSE : BitVec 3
  /-- The values the host's reads have returned, newest first. Log entry 6. -/
  responses : List Word
  /-- The words the latest function evaluation delivered. Log entry 7. -/
  result : List Word
  /-- What the HOST agent has still to issue, next operation first. Log entry 3. -/
  program : List HostOp
  /-- The interleaving still to come, next turn first. Log entry 4. -/
  turns : List Turn
  /-- How many free words RESET events have drawn. Log entry 2. -/
  draws : Nat
  deriving DecidableEq, Repr

/-- The machine right after reset (10_state R33). The spec leaves `S`, `W` and `OUT` unspecified: zero here is log entry 1;
the host has no program yet and no interleaving is laid down (log entries 3, 4). -/
def State.reset : State where
  S := Vector.replicate 16 0
  W := Vector.replicate 16 0
  OUT := Vector.replicate 16 0
  rnd := 0
  BUSY := false
  DONE := false
  ERR := false
  CAUSE := 0
  responses := []
  result := []
  program := []
  turns := []
  draws := 0

end Sys2Proof.Machine
end

