-- ==== Sys2Proof/Machine/Flags.lean ====
section
/-! DEFINITION. The flags: cause codes, the STATUS word, the pins. There are no arithmetic flags (10_state R26). -/

namespace Sys2Proof.Machine

/-- The code a violation leaves in CAUSE (60_exceptions R222). -/
def Violation.code : Violation → BitVec 3
  | .wrStateBusy => 1
  | .startBusy => 2
  | .rdOutNotDone => 3
  | .wrReadOnly => 4
  | .reservedAddr => 5

/-- STATUS `= zext_32({CAUSE, 0b0, ERR, DONE, BUSY})` (10_state R30). -/
def statusWord (s : State) : Word :=
  (s.CAUSE ++ 0#1 ++ BitVec.ofBool s.ERR ++ BitVec.ofBool s.DONE ++ BitVec.ofBool s.BUSY).zeroExtend 32

/-- Pin `busy`, at all times the flag `BUSY` (60_exceptions R226). -/
def pinBusy (s : State) : Bool := s.BUSY

/-- Pin `done`, at all times the flag `DONE` (60_exceptions R226). -/
def pinDone (s : State) : Bool := s.DONE

/-- Pin `rsp_rdata`: at a read command its result (92_eei_decisions D4). What the pin shows otherwise the spec leaves open.
DESIGN CHOICE: it keeps the latest read's result through writes, ENGINE steps and RESET, and has no value before the first
read (log entry 15). -/
def pinRdata (s : State) : Option Word := s.responses.head?

end Sys2Proof.Machine
end

