-- ==== Sys2Proof/Machine/Operands.lean ====
section
/-! DEFINITION. The register window: what each of its 64 word addresses reads as (20_memory R51). -/

namespace Sys2Proof.Machine

/-- `OUT[i]` as the host may see it: gated by DONE (45_host_commands R192). -/
def outGated (i : Fin 16) (s : State) : Word := bif s.DONE then s.OUT[i] else 0

/-- What a read of a word address returns in a state, without the read's side effect: STATE[i], OUT[i] gated by DONE, CTRL 0,
STATUS, reserved 0 (20_memory R51). -/
def readValue (addr : BitVec 6) (s : State) : Word :=
  if addrRegion addr = 0b00#2 then s.S[addrIndex addr]
  else if addrRegion addr = 0b01#2 then outGated (addrIndex addr) s
  else if addr = 0x21#6 then statusWord s
  else 0

/-- The violation a read of a word address records, if any (20_memory R56): an ungated OUT, a reserved address. -/
def readViolation (addr : BitVec 6) (s : State) : Option Violation :=
  if addrRegion addr = 0b00#2 then none
  else if addrRegion addr = 0b01#2 then (if s.DONE then none else some .rdOutNotDone)
  else if addr = 0x20#6 ∨ addr = 0x21#6 then none
  else some .reservedAddr

end Sys2Proof.Machine
end

