-- ==== Sys2Proof/Machine/Ops.lean ====
section
/-! DEFINITION. The shared operations over the state. Recording a protocol violation, the engine's only exceptional event, is
ONE operation, `raiseViolation`; there is no trap entry and no return from one (60_exceptions R221, R225, R227). -/

namespace Sys2Proof.Machine

/-- `raise ProtocolViolation(c)`: `if ERR = 0 then (ERR <- 1; CAUSE <- c)`, and nothing else (00_scope R10). -/
def raiseViolation (c : Violation) (s : State) : State :=
  if s.ERR then s else { s with ERR := true, CAUSE := c.code }

/-- The host receives `rdata = v` (30_encoding R81). -/
def respond (v : Word) (s : State) : State := { s with responses := v :: s.responses }

/-- A function evaluation delivers its words (30_encoding R97, log entry 7). -/
def deliver (vs : List Word) (s : State) : State := { s with result := vs }

/-- Operations put in front of the host's remaining program (30_encoding R96, log entry 13). -/
def issue (ops : List HostOp) (s : State) : State := { s with program := ops ++ s.program }

/-- A write to STATE[i]: stored while `BUSY = 0`, else dropped with violation 1 (45_host_commands R190). -/
def writeStateReg (i : Fin 16) (v : Word) (s : State) : State :=
  if s.BUSY then raiseViolation .wrStateBusy s else { s with S := s.S.set i v }

/-- A read of OUT[i]: the value while `DONE = 1`, else 0 with violation 3 (45_host_commands R192). -/
def readOutReg (i : Fin 16) (s : State) : State :=
  if s.DONE then respond s.OUT[i] s else raiseViolation .rdOutNotDone (respond 0 s)

/-- A read of STATUS (45_host_commands R196). -/
def readStatusReg (s : State) : State := respond (statusWord s) s

/-- COPY: `W[i] <- S[i]` for all sixteen (43_block_transform R160). -/
def copyState (s : State) : State := { s with W := s.S }

/-- START: an accepted START copies, clears `rnd`, sets BUSY, clears DONE; while `BUSY = 1` it is violation 2 and nothing else
(45_host_commands R193). -/
def startTransform (s : State) : State :=
  if s.BUSY then raiseViolation .startBusy s else { copyState s with rnd := 0, BUSY := true, DONE := false }

/-- The body of E-ROUND: `W <- f(W)`, `rnd <- rnd + 1` (43_block_transform R167). -/
def applyRound (f : Block → Block) (s : State) : State := { s with W := f s.W, rnd := s.rnd + 1 }

/-- The body of E-FINAL: `OUT <- FINALADD(S, W)`, `BUSY <- 0`, `DONE <- 1`, `rnd <- 0` (43_block_transform R168). -/
def finishTransform (s : State) : State :=
  { s with OUT := finaladd s.S s.W, BUSY := false, DONE := true, rnd := 0 }

/-- Sixteen free words, numbered from `base` (93_implementation_defined U1). DESIGN CHOICE: every engine numbers its draws from
one sequence, so two engines that have drawn equally often draw equal words, which the spec leaves open (log entry 2). -/
def drawBlock (base : Nat) : Block := tabulate fun i => Config.resetDraw (base + i.val)

/-- The RESET event: control state cleared, the 48 data registers drawn anew (70_reset_and_hazards R250). What the host has
received, its program and the interleaving are not the engine's (log entry 14). Whether two engines' words agree: log entry 2. -/
def resetEngine (s : State) : State :=
  { s with
    BUSY := false, DONE := false, ERR := false, CAUSE := 0, rnd := 0
    S := drawBlock s.draws, W := drawBlock (s.draws + 16), OUT := drawBlock (s.draws + 32)
    draws := s.draws + 48 }

/-- The next turn is used up. -/
def popTurn (s : State) : State := { s with turns := s.turns.tail }

end Sys2Proof.Machine
end

