-- ==== Sys2Proof/Machine/Functions.lean ====
section
/-! DEFINITION. The operations of format FUNC (30_encoding R97), one meaning each: the function is evaluated on its operands
and its words are delivered in `result`; no other part of the state is read or written (40_arx_primitives R115), but for COPY,
whose destination is `W` (43_block_transform R160). Log entry 7. -/

namespace Sys2Proof.Machine

/-- ADD32 (40_arx_primitives R110). -/
def execAdd32 (x y : Word) (s : State) : Host.Outcome State Fault Refusal := .next (deliver [add32 x y] s)

/-- XOR32 (40_arx_primitives R111). -/
def execXor32 (x y : Word) (s : State) : Host.Outcome State Fault Refusal := .next (deliver [xor32 x y] s)

/-- ROTL32, for `0 < n < 32`; outside the domain it is refused (40_arx_primitives R112; log entry 8). -/
def execRotl32 (v : Word) (n : Nat) (s : State) : Host.Outcome State Fault Refusal :=
  if 0 < n ∧ n < 32 then .next (deliver [rotl32 v n] s) else .refused .rotateAmount

/-- QR: the four words that replace the operands (41_quarter_round R130). -/
def execQr (a b c d : Word) (s : State) : Host.Outcome State Fault Refusal :=
  let q := qr a b c d
  .next (deliver [q.a, q.b, q.c, q.d] s)

/-- ROUND (42_rounds_and_schedule R148). -/
def execRound (k : Fin 20) (x : Block) (s : State) : Host.Outcome State Fault Refusal :=
  .next (deliver (roundFn k.val x).toList s)

/-- DOUBLEROUND (42_rounds_and_schedule R148). -/
def execDoubleround (x : Block) (s : State) : Host.Outcome State Fault Refusal := .next (deliver (doubleround x).toList s)

/-- ROUNDS (42_rounds_and_schedule R146). -/
def execRounds (x : Block) (n : Fin 21) (s : State) : Host.Outcome State Fault Refusal :=
  .next (deliver (roundsFn x n.val).toList s)

/-- COPY: `W[i] <- S[i]`, all sixteen together (43_block_transform R160). -/
def execCopy (s : State) : Host.Outcome State Fault Refusal := .next (copyState s)

/-- BLOCK (43_block_transform R164). -/
def execBlock (x : Block) (s : State) : Host.Outcome State Fault Refusal := .next (deliver (blockFn x).toList s)

/-- BSWAP32, applied by the host (44_endianness R180, R182). -/
def execBswap32 (w : Word) (s : State) : Host.Outcome State Fault Refusal := .next (deliver [bswap32 w] s)

end Sys2Proof.Machine
end

