-- ==== Sys2Proof/Machine/HostCommands.lean ====
section
/-! DEFINITION. The host commands of the BUS format (45_host_commands R190 to R200), one meaning each. Every one completes as
one step in whatever state it meets (20_memory R61). -/

namespace Sys2Proof.Machine

/-- RD_STATE: `rdata <- S[i]`, in any state, no violation (R191). -/
def execRdState (i : Fin 16) (s : State) : Host.Outcome State Fault Refusal := .next (respond s.S[i] s)

/-- WR_STATE (R190). -/
def execWrState (i : Fin 16) (v : Word) (s : State) : Host.Outcome State Fault Refusal := .next (writeStateReg i v s)

/-- RD_OUT (R192). -/
def execRdOut (i : Fin 16) (s : State) : Host.Outcome State Fault Refusal := .next (readOutReg i s)

/-- WR_OUT: violation 4, nothing written; index and value are ignored (R197). -/
def execWrOut (_i : Fin 16) (_v : Word) (s : State) : Host.Outcome State Fault Refusal := .next (raiseViolation .wrReadOnly s)

/-- RD_CTRL: `rdata <- 0` (R195). -/
def execRdCtrl (s : State) : Host.Outcome State Fault Refusal := .next (respond 0 s)

/-- START (R193). -/
def execStart (s : State) : Host.Outcome State Fault Refusal := .next (startTransform s)

/-- WR_CTRL_NOP: no state change (R194). -/
def execWrCtrlNop (s : State) : Host.Outcome State Fault Refusal := .next s

/-- RD_STATUS: `rdata <- BUSY + 2*DONE + 4*ERR + 16*CAUSE` (R196). -/
def execRdStatus (s : State) : Host.Outcome State Fault Refusal := .next (readStatusReg s)

/-- WR_STATUS: violation 4; the value is ignored (R198). -/
def execWrStatus (_v : Word) (s : State) : Host.Outcome State Fault Refusal := .next (raiseViolation .wrReadOnly s)

/-- RD_RSVD: `rdata <- 0`, violation 5 (R199). -/
def execRdRsvd (_a : BitVec 6) (s : State) : Host.Outcome State Fault Refusal :=
  .next (raiseViolation .reservedAddr (respond 0 s))

/-- WR_RSVD: violation 5, nothing stored (R200). -/
def execWrRsvd (_a : BitVec 6) (_v : Word) (s : State) : Host.Outcome State Fault Refusal :=
  .next (raiseViolation .reservedAddr s)

end Sys2Proof.Machine
end

