-- ==== Sys2Proof/Machine/Pseudo.lean ====
section
/-! DEFINITION. The pseudo-instructions (30_encoding R96), one meaning each: the first command of the expansion is performed
in this step and the rest of the expansion goes in front of the host's program, so that each command stays one atomic step
that other agents' steps can separate (20_memory R60). Log entry 13. -/

namespace Sys2Proof.Machine

/-- The register indices 1 to 15. -/
def laterIndices : List (Fin 16) := [1, 2, 3, 4, 5, 6, 7, 8, 9, 10, 11, 12, 13, 14, 15]

/-- `WR STATE[1], w1` to `WR STATE[15], w15`. -/
def loadstateRest (ws : Block) : List HostOp :=
  laterIndices.map fun i => .command (assemble (.wrState i ws[i]))

/-- `RD OUT[1]` to `RD OUT[15]`. -/
def readoutRest : List HostOp := laterIndices.map fun i => .command (assemble (.rdOut i))

/-- LOADSTATE: `WR STATE[0], w0` to `WR STATE[15], w15` in that order. -/
def execLoadstate (ws : Block) (s : State) : Host.Outcome State Fault Refusal :=
  .next (writeStateReg 0 ws[(0 : Fin 16)] (issue (loadstateRest ws) s))

/-- POLL: `repeat: RD STATUS -> s; until s[1] = 1`; one reading a step. -/
def execPoll (s : State) : Host.Outcome State Fault Refusal :=
  .next (if (statusWord s).getLsbD 1 then readStatusReg s else readStatusReg (issue [.poll] s))

/-- READOUT: `RD OUT[0]` to `RD OUT[15]` in that order. -/
def execReadout (s : State) : Host.Outcome State Fault Refusal := .next (readOutReg 0 (issue readoutRest s))

/-- RUNBLOCK: `START; POLL; READOUT`. -/
def execRunblock (s : State) : Host.Outcome State Fault Refusal := .next (startTransform (issue [.poll, .readout] s))

/-- SETCTR: `WR STATE[12], c`. -/
def execSetctr (c : Word) (s : State) : Host.Outcome State Fault Refusal := .next (writeStateReg 12 c s)

end Sys2Proof.Machine
end

