-- ==== Sys2Proof/Machine/Sequencer.lean ====
section
/-! DEFINITION. The micro-operations (30_encoding R90, R91), the ENGINE's steps (43_block_transform R167, R168) and the RESET
event (70_reset_and_hazards R250), one meaning each. A step that is not enabled is no step: nothing changes (log entry 5). -/

namespace Sys2Proof.Machine

/-- The entry at index `k` is the ENGINE's next step: `BUSY = 1` and `rnd = k` (30_encoding R90). -/
def entrySelected (k : BitVec 5) (s : State) : Bool := s.BUSY && s.rnd == k

/-- COLROUND at index `k`, performed by E-ROUND: `W <- COLROUND(W)`, `rnd <- rnd + 1` (30_encoding R90; log entry 10). -/
def execColround (k : BitVec 5) (s : State) : Host.Outcome State Fault Refusal :=
  .next (if entrySelected k s then applyRound colround s else s)

/-- DIAGROUND at index `k`, performed by E-ROUND: `W <- DIAGROUND(W)`, `rnd <- rnd + 1` (30_encoding R90; log entry 10). -/
def execDiaground (k : BitVec 5) (s : State) : Host.Outcome State Fault Refusal :=
  .next (if entrySelected k s then applyRound diaground s else s)

/-- FINALADD at index 20, performed by E-FINAL (30_encoding R90, 43_block_transform R163; log entry 10). -/
def execFinaladd (s : State) : Host.Outcome State Fault Refusal :=
  .next (if entrySelected 20 s then finishTransform s else s)

/-- SEQ_RSVD, indices 21 to 31: no step, the ENGINE is stuck (30_encoding R91; log entry 9). -/
def execSeqRsvd (_k : BitVec 5) (_s : State) : Host.Outcome State Fault Refusal := .fault .engineStuck

/-- E-ROUND, enabled when `BUSY = 1` and `rnd < 20`: a column round if `rnd[0] = 0`, else a diagonal round, and the counter
advances (43_block_transform R167). -/
def execERound (s : State) : Host.Outcome State Fault Refusal :=
  .next (if s.BUSY && decide (s.rnd.toNat < 20) then
    (if s.rnd.getLsbD 0 then applyRound diaground s else applyRound colround s) else s)

/-- E-FINAL, enabled when `BUSY = 1` and `rnd = 20` (43_block_transform R168). -/
def execEFinal (s : State) : Host.Outcome State Fault Refusal :=
  .next (if s.BUSY && decide (s.rnd.toNat = 20) then finishTransform s else s)

/-- RESET, enabled in every state (70_reset_and_hazards R250). -/
def execReset (s : State) : Host.Outcome State Fault Refusal := .next (resetEngine s)

end Sys2Proof.Machine
end

