-- ==== Sys2Proof/Machine/Dispatch.lean ====
section
/-! DEFINITION. One arm per operation. -/

namespace Sys2Proof.Machine

def exec (i : Instr) (s : State) : Host.Outcome State Fault Refusal :=
  match i with
  | .rdState i' => Sys2Proof.Machine.execRdState i' s
  | .wrState i' v => Sys2Proof.Machine.execWrState i' v s
  | .rdOut i' => Sys2Proof.Machine.execRdOut i' s
  | .wrOut i' v => Sys2Proof.Machine.execWrOut i' v s
  | .rdCtrl => Sys2Proof.Machine.execRdCtrl s
  | .start => Sys2Proof.Machine.execStart s
  | .wrCtrlNop => Sys2Proof.Machine.execWrCtrlNop s
  | .rdStatus => Sys2Proof.Machine.execRdStatus s
  | .wrStatus v => Sys2Proof.Machine.execWrStatus v s
  | .rdRsvd a => Sys2Proof.Machine.execRdRsvd a s
  | .wrRsvd a v => Sys2Proof.Machine.execWrRsvd a v s
  | .colround k => Sys2Proof.Machine.execColround k s
  | .diaground k => Sys2Proof.Machine.execDiaground k s
  | .finaladd => Sys2Proof.Machine.execFinaladd s
  | .seqRsvd k => Sys2Proof.Machine.execSeqRsvd k s
  | .eRound => Sys2Proof.Machine.execERound s
  | .eFinal => Sys2Proof.Machine.execEFinal s
  | .reset => Sys2Proof.Machine.execReset s
  | .add32 x y => Sys2Proof.Machine.execAdd32 x y s
  | .xor32 x y => Sys2Proof.Machine.execXor32 x y s
  | .rotl32 v n => Sys2Proof.Machine.execRotl32 v n s
  | .qr a b c d => Sys2Proof.Machine.execQr a b c d s
  | .round k x => Sys2Proof.Machine.execRound k x s
  | .doubleround x => Sys2Proof.Machine.execDoubleround x s
  | .rounds x n => Sys2Proof.Machine.execRounds x n s
  | .copy => Sys2Proof.Machine.execCopy s
  | .block x => Sys2Proof.Machine.execBlock x s
  | .bswap32 w => Sys2Proof.Machine.execBswap32 w s
  | .loadstate ws => Sys2Proof.Machine.execLoadstate ws s
  | .poll => Sys2Proof.Machine.execPoll s
  | .readout => Sys2Proof.Machine.execReadout s
  | .runblock => Sys2Proof.Machine.execRunblock s
  | .setctr c => Sys2Proof.Machine.execSetctr c s

end Sys2Proof.Machine
end

