-- ==== Sys2Proof/Machine/Turns.lean ====
section
/-! DEFINITION. What each agent's turn runs (00_scope R7, 20_memory R60), and the host's two primitives (00_scope R10). -/

namespace Sys2Proof.Machine

/-- Whose turn it is: the head of `turns`; with none laid down, the ENGINE while a transform runs, else the HOST
(70_reset_and_hazards R262: the ENGINE takes its enabled step; log entry 4). -/
def nextTurn (s : State) : Turn :=
  match s.turns with
  | [] => if s.BUSY then .engine else .host
  | u :: _ => u

/-- The HOST issues its next operation; with an empty program it does nothing (log entry 5). -/
def hostTurn (s : State) : Host.Outcome State Fault Refusal :=
  match s.program with
  | [] => .next s
  | op :: rest => exec op.instr { s with program := rest }

/-- The ENGINE takes the step `rnd` selects from the micro-program (30_encoding R90); with `BUSY = 0` it has none
(43_block_transform R167; log entry 5). -/
def engineTurn (s : State) : Host.Outcome State Fault Refusal :=
  if s.BUSY then exec (decodeSeq s.rnd) s else .next s

/-- One agent's turn. -/
def takeTurn (u : Turn) (s : State) : Host.Outcome State Fault Refusal :=
  match u with
  | .host => hostTurn s
  | .engine => engineTurn s
  | .reset => exec .reset s

/-- `MemRead(addr, n)`: the host's read command, for the one access width there is (00_scope R10, 20_memory R53). -/
def memRead (addr : BitVec 6) (n : Nat) (s : State) : Host.Outcome State Fault Refusal :=
  if n = 1 then exec (decodeBus (busWord false addr 0)) s else .refused .accessWidth

/-- `MemWrite(addr, n, v)`: the host's write command, for the one access width there is (00_scope R10, 20_memory R53). -/
def memWrite (addr : BitVec 6) (n : Nat) (v : Word) (s : State) : Host.Outcome State Fault Refusal :=
  if n = 1 then exec (decodeBus (busWord true addr v)) s else .refused .accessWidth

/-- A state in which the very next step is the ENGINE's at micro-program index `k`. -/
def selectEntry (k : BitVec 5) (s : State) : State :=
  { s with BUSY := true, rnd := k, turns := .engine :: s.turns }

/-- A state in which the very next step is the HOST's command word `w`. -/
def presentCommand (w : BitVec 39) (s : State) : State :=
  { s with program := .command w :: s.program, turns := .host :: s.turns }

end Sys2Proof.Machine
end

