-- ==== Sys2Proof/Machine/Step.lean ====
section
/-! DEFINITION. One atomic step of the total sequence of steps (20_memory R60). -/

namespace Sys2Proof.Machine

/-- One step: the next turn is taken off and its agent runs. -/
def step (s : State) : Host.Outcome State Fault Refusal := takeTurn (nextTurn s) (popTurn s)

/-- `s` with the operation of `nbits` bits `w` placed so that the very next step runs it: a command word becomes the host's
next command, a micro-program index the ENGINE's next step. Log entries 3 and 17. -/
def State.withFetchWord (s : State) (nbits w : Nat) : State :=
  if nbits ≤ 8 then selectEntry (BitVec.ofNat 5 w) s else presentCommand (BitVec.ofNat 39 w) s

end Sys2Proof.Machine
end

