-- ==== Sys2Proof/Machine/System.lean ====
section
/-! DEFINITION. Several engines side by side (20_memory R64, 60_exceptions R231). -/

namespace Sys2Proof.Machine

/-- `n` engines, engine `k` takes one step of its own. DESIGN CHOICE: engines with equal `draws` get equal words from a RESET, a
point the spec leaves open (log entries 2 and 18). -/
def stepEngine {n : Nat} (k : Fin n) (es : Vector State n) : Host.Outcome (Vector State n) Fault Refusal :=
  match step es[k] with
  | .next t => .next (es.set k t)
  | .fault r => .fault r
  | .refused r => .refused r

end Sys2Proof.Machine
end

