-- ==== Sys2Proof/Safety.lean ====
section
/-! DEFINITION. The terms claims are stated in: runs, safe states, invariants, frames. -/

namespace Sys2Proof.Machine

/-- `n` steps, stopping at the first fault or refusal. -/
def runFor : Nat → State → Host.Outcome State Fault Refusal
  | 0, s => .next s
  | n + 1, s =>
    match step s with
    | .next t => runFor n t
    | .fault r => .fault r
    | .refused r => .refused r

/-- The machine can go on from `s`. -/
def canStep (s : State) : Prop := ∃ t, step s = .next t

/-- IDLE, RUNNING, FINISHED (10_state R26). -/
def isIdle (s : State) : Prop := s.BUSY = false ∧ s.DONE = false
def isRunning (s : State) : Prop := s.BUSY = true ∧ s.DONE = false
def isFinished (s : State) : Prop := s.BUSY = false ∧ s.DONE = true

/-- The invariants of the control state (10_state R32): (I-a) BUSY and DONE are not both 1, (I-b) `BUSY = 0` implies
`rnd = 0`, (I-c) `rnd <= 20`, (I-d) `ERR = 0` exactly when `CAUSE = 0`, and `CAUSE <= 5`. -/
structure ControlInv (s : State) : Prop where
  notBoth : ¬(s.BUSY = true ∧ s.DONE = true)
  restRnd : s.BUSY = false → s.rnd = 0
  rndRange : s.rnd.toNat ≤ 20
  causeIffErr : s.ERR = false ↔ s.CAUSE = 0
  causeRange : s.CAUSE.toNat ≤ 5

/-- (I-e) of 10_state R32: while a transform runs, `W = ROUNDS(S, rnd)`. -/
def WorkingInv (s : State) : Prop := s.BUSY = true → s.W = roundsFn s.S s.rnd.toNat

/-- (I-f) of 10_state R32 for the transform started on `X`: while it runs, `S = X` and `W` is so many rounds of it;
when it is done, `OUT = BLOCK(X)`; and one of the two holds. -/
structure TransformOf (X : Block) (s : State) : Prop where
  phase : s.BUSY = true ∨ s.DONE = true
  locked : s.BUSY = true → s.S = X ∧ s.W = roundsFn X s.rnd.toNat ∧ s.rnd.toNat ≤ 20 ∧ s.DONE = false
  output : s.DONE = true → s.OUT = blockFn X ∧ s.BUSY = false

/-- A START that this operation would have accepted in this state (45_host_commands R193). -/
def acceptsStart (i : Instr) (s : State) : Prop := s.BUSY = false ∧ (i = .start ∨ i = .runblock)

/-! ### Frames: what a step leaves as it was -/

/-- The three register files are unchanged. -/
def keepsData (s t : State) : Prop := t.S = s.S ∧ t.W = s.W ∧ t.OUT = s.OUT

/-- The sequencer and the transform flags are unchanged. -/
def keepsSequencer (s t : State) : Prop := t.rnd = s.rnd ∧ t.BUSY = s.BUSY ∧ t.DONE = s.DONE

/-- The violation record is unchanged. -/
def keepsRecord (s t : State) : Prop := t.ERR = s.ERR ∧ t.CAUSE = s.CAUSE

/-- The model's own fields but for the host's responses are unchanged. -/
def keepsAgents (s t : State) : Prop :=
  t.result = s.result ∧ t.program = s.program ∧ t.turns = s.turns ∧ t.draws = s.draws

/-- Everything the spec gives the engine is unchanged. -/
def keepsEngine (s t : State) : Prop := keepsData s t ∧ keepsSequencer s t ∧ keepsRecord s t

/-- Violation code `c` has been recorded, unless one was recorded before: the first cause is kept (60_exceptions R221, R222). -/
def recordsViolation (c : BitVec 3) (s t : State) : Prop :=
  t.ERR = true ∧ t.CAUSE = bif s.ERR then s.CAUSE else c

/-- The host has received the words `vs`, oldest first, and nothing else. -/
def received (vs : List Word) (s t : State) : Prop := t.responses = vs.reverse ++ s.responses

/-- No RESET is laid down in an interleaving. -/
def noReset (turns : List Turn) : Prop := Turn.reset ∉ turns

end Sys2Proof.Machine
end

