-- ==== Sys2Proof/Certificates/Slice0/Obligations.lean ====
section
/-! DEFINITION. The statements for the provers, from the numbered rules of the spec. OBLIGATIONS.json lists them. -/

open Sys2Proof Sys2Proof.Machine

/-! ### Encoding -/

/-- Words written out in 95_test_vectors.md section 2.9 decode to the commands they stand for, and entries of the
micro-program (30_encoding R90) to theirs. -/
def Obligations.SpecWordsDecodeToTheirCommands : Prop :=
  decodeBus 0x4061707865 = .wrState 0 0x61707865 ∧
  decodeBus 0x4403020100 = .wrState 4 0x03020100 ∧
  decodeBus 0x0C00000000 = .rdState 12 ∧
  decodeBus 0x1F00000000 = .rdOut 15 ∧
  decodeBus 0x5012345678 = .wrOut 0 0x12345678 ∧
  decodeBus 0x60FFFFFFFF = .start ∧
  decodeBus 0x60FFFFFFFE = .wrCtrlNop ∧
  decodeBus 0x2000000000 = .rdCtrl ∧
  decodeBus 0x2100000000 = .rdStatus ∧
  decodeBus 0x6100000000 = .wrStatus 0 ∧
  decodeBus 0x2200000000 = .rdRsvd 0x22 ∧
  decodeBus 0x7FFFFFFFFF = .wrRsvd 0x3F 0xFFFFFFFF ∧
  decodeSeq 0b01110 = .colround 14 ∧
  decodeSeq 0b10011 = .diaground 19 ∧
  decodeSeq 0b10100 = .finaladd ∧
  decodeSeq 0b10101 = .seqRsvd 21

/-- Decode and encode agree: the word of every well-formed encoded instruction, every operand at every value, decodes back
to it. -/
def Obligations.DecodeEncodeRoundTrip : Prop :=
  ∀ (i : Instr) (e : Encoded), i.wf = true → encode i = some e → decode e = i

/-- Every command word decodes to a well-formed command, and that command's canonical word (30_encoding R84) decodes to the
same command. -/
def Obligations.EveryCommandWordHasACanonicalWord : Prop :=
  ∀ w : BitVec 39, (decodeBus w).wf = true ∧
    ∃ c : BitVec 39, encode (decodeBus w) = some (.bus c) ∧ decodeBus c = decodeBus w

/-- 30_encoding R83: each of the 2^39 command words fits exactly one of the seventeen mask/match rows, the row of the
command it decodes to. -/
def Obligations.EveryWordFitsExactlyOneRow : Prop :=
  ∀ w : BitVec 39, ∃ r ∈ busRows, r.fits w = true ∧ r.mnemonic = (decodeBus w).mnemonic ∧
    ∀ r' ∈ busRows, r'.fits w = true → r' = r

/-- 30_encoding R82, R83 field by field: which command each region and direction selects, with its operands; `wdata` is
ignored on every read and, but for bit 0, on a CTRL write. -/
def Obligations.FieldsSelectTheCommand : Prop :=
  ∀ (i : Fin 16) (a : BitVec 6) (v : Word),
    decodeBus (busWord false (stateAddr i) v) = .rdState i ∧
    decodeBus (busWord true (stateAddr i) v) = .wrState i v ∧
    decodeBus (busWord false (outAddr i) v) = .rdOut i ∧
    decodeBus (busWord true (outAddr i) v) = .wrOut i v ∧
    decodeBus (busWord false 0x20 v) = .rdCtrl ∧
    (v.getLsbD 0 = true → decodeBus (busWord true 0x20 v) = .start) ∧
    (v.getLsbD 0 = false → decodeBus (busWord true 0x20 v) = .wrCtrlNop) ∧
    decodeBus (busWord false 0x21 v) = .rdStatus ∧
    decodeBus (busWord true 0x21 v) = .wrStatus v ∧
    (0x22 ≤ a.toNat → decodeBus (busWord false a v) = .rdRsvd a) ∧
    (0x22 ≤ a.toNat → decodeBus (busWord true a v) = .wrRsvd a v)

/-- 30_encoding R81: a command word is the number `we * 2^38 + addr * 2^32 + wdata`, and every word is the word of its own
three fields. -/
def Obligations.CommandWordIsItsThreeFields : Prop :=
  (∀ (we : Bool) (a : BitVec 6) (v : Word),
    (busWord we a v).toNat = we.toNat * 2 ^ 38 + a.toNat * 2 ^ 32 + v.toNat) ∧
  (∀ w : BitVec 39, busWord (busWe w) (busAddr w) (busWdata w) = w)

/-- 30_encoding R90, R91: the micro-program. Even indices below 20 are COLROUND, odd ones DIAGROUND, 20 is FINALADD, above
there is no entry; each index fits exactly one mask/match row, its own. -/
def Obligations.MicroProgramEntries : Prop :=
  ∀ k : BitVec 5,
    (k.toNat < 20 → k.getLsbD 0 = false → decodeSeq k = .colround k) ∧
    (k.toNat < 20 → k.getLsbD 0 = true → decodeSeq k = .diaground k) ∧
    (k.toNat = 20 → decodeSeq k = .finaladd) ∧
    (20 < k.toNat → decodeSeq k = .seqRsvd k) ∧
    ∃ r ∈ seqRows, r.fits k = true ∧ r.mnemonic = (decodeSeq k).mnemonic ∧ ∀ r' ∈ seqRows, r'.fits k = true → r' = r

/-- 30_encoding R95: each line of the assembler notation is the command the table gives, at the word the table gives. -/
def Obligations.AssemblerLinesAreTheirCommands : Prop :=
  ∀ (i : Fin 16) (a : BitVec 6) (v : Word),
    (decodeBus (assemble (.wrState i v)) = .wrState i v ∧
      (assemble (.wrState i v)).toNat = 2 ^ 38 + i.val * 2 ^ 32 + v.toNat) ∧
    (decodeBus (assemble (.rdState i)) = .rdState i ∧ (assemble (.rdState i)).toNat = i.val * 2 ^ 32) ∧
    (decodeBus (assemble (.rdOut i)) = .rdOut i ∧ (assemble (.rdOut i)).toNat = (0x10 + i.val) * 2 ^ 32) ∧
    (decodeBus (assemble (.wrOut i v)) = .wrOut i v ∧
      (assemble (.wrOut i v)).toNat = 2 ^ 38 + (0x10 + i.val) * 2 ^ 32 + v.toNat) ∧
    (decodeBus (assemble .start) = .start ∧ assemble .start = 0x6000000001) ∧
    (decodeBus (assemble (.wrCtrl v)) = (if v.getLsbD 0 then .start else .wrCtrlNop) ∧
      (assemble (.wrCtrl v)).toNat = 2 ^ 38 + 0x20 * 2 ^ 32 + v.toNat) ∧
    (decodeBus (assemble .rdCtrl) = .rdCtrl ∧ assemble .rdCtrl = 0x2000000000) ∧
    (decodeBus (assemble .rdStatus) = .rdStatus ∧ assemble .rdStatus = 0x2100000000) ∧
    (decodeBus (assemble (.wrStatus v)) = .wrStatus v ∧
      (assemble (.wrStatus v)).toNat = 2 ^ 38 + 0x21 * 2 ^ 32 + v.toNat) ∧
    (assemble (.wrRaw a v)).toNat = 2 ^ 38 + a.toNat * 2 ^ 32 + v.toNat ∧
    (assemble (.rdRaw a)).toNat = a.toNat * 2 ^ 32

/-! ### A step -/

/-- On a HOST turn a step runs the next operation of the host's program, a command word decoded, from the state with that
operation and that turn taken off (that the program is a list in the state is log entry 3: the model's choice). With an empty
program nothing but the turn is used up (log entry 5: the model's choice). -/
def Obligations.HostTurnRunsTheDecodedCommand : Prop :=
  ∀ (s : State) (us : List Turn) (rest : List HostOp), s.turns = .host :: us →
    (∀ w : BitVec 39, s.program = .command w :: rest →
      step s = exec (decodeBus w) { s with program := rest, turns := us }) ∧
    (∀ op : HostOp, s.program = op :: rest → step s = exec op.instr { s with program := rest, turns := us }) ∧
    (s.program = [] → step s = .next { s with turns := us })

/-- On an ENGINE turn a step runs the micro-program entry that `rnd` selects while BUSY; on a RESET turn it runs RESET. That an
ENGINE turn while `BUSY = 0` changes nothing but the turn, and that a HOST's step with an empty program changes nothing, is log
entry 5: the model's choice. That with no turn laid down the ENGINE goes on while BUSY, else the HOST does, is log entry 4: the
model's choice. -/
def Obligations.EngineAndResetTurnsRunTheirSteps : Prop :=
  (∀ (s : State) (us : List Turn), s.turns = .engine :: us →
    (s.BUSY = true → step s = exec (decodeSeq s.rnd) { s with turns := us }) ∧
    (s.BUSY = false → step s = .next { s with turns := us })) ∧
  (∀ (s : State) (us : List Turn), s.turns = .reset :: us → step s = exec .reset { s with turns := us }) ∧
  (∀ s : State, s.turns = [] →
    (s.BUSY = true → step s = exec (decodeSeq s.rnd) s) ∧
    (s.BUSY = false → s.program = [] → step s = .next s) ∧
    (∀ op rest, s.BUSY = false → s.program = op :: rest → step s = exec op.instr { s with program := rest }))

/-- A word placed with `withFetchWord` is what the very next step runs: a 39-bit command word by the HOST, a 5-bit index by
the ENGINE. -/
def Obligations.PlacedWordRunsNext : Prop :=
  (∀ (s : State) (w : BitVec 39), step (s.withFetchWord 40 w.toNat) = exec (decodeBus w) s ∧
    decodeTableWord 40 w.toNat = some (decodeBus w)) ∧
  (∀ (s : State) (k : BitVec 5),
    step (s.withFetchWord 8 k.toNat) = exec (decodeSeq k) { s with BUSY := true, rnd := k } ∧
    decodeTableWord 8 k.toNat = some (decodeSeq k))

/-! ### Host commands: completion, result, frame -/

/-- 45_host_commands R190: WR_STATE completes in every state; it stores while `BUSY = 0` and is dropped with violation 1
while `BUSY = 1`. -/
def Obligations.WrStateStoresUnlessBusy : Prop :=
  ∀ (i : Fin 16) (v : Word) (s : State),
    decodeBus (busWord true (stateAddr i) v) = .wrState i v ∧
    ∃ t, exec (.wrState i v) s = .next t ∧
      t.W = s.W ∧ t.OUT = s.OUT ∧ keepsSequencer s t ∧ keepsAgents s t ∧ received [] s t ∧
      (s.BUSY = false → t.S[i] = v ∧ (∀ j : Fin 16, j ≠ i → t.S[j] = s.S[j]) ∧ keepsRecord s t) ∧
      (s.BUSY = true → t.S = s.S ∧ recordsViolation 1 s t)

/-- 45_host_commands R191: RD_STATE completes in every state, returns `S[i]`, and changes nothing of the engine. -/
def Obligations.RdStateReturnsTheRegister : Prop :=
  ∀ (i : Fin 16) (s : State),
    (∀ v, decodeBus (busWord false (stateAddr i) v) = .rdState i) ∧
    ∃ t, exec (.rdState i) s = .next t ∧ received [s.S[i]] s t ∧ keepsEngine s t ∧ keepsAgents s t

/-- 45_host_commands R192: RD_OUT completes in every state; it returns `OUT[i]` while `DONE = 1`, else 0 with violation 3. -/
def Obligations.RdOutReturnsTheResultOnceDone : Prop :=
  ∀ (i : Fin 16) (s : State),
    (∀ v, decodeBus (busWord false (outAddr i) v) = .rdOut i) ∧
    ∃ t, exec (.rdOut i) s = .next t ∧ keepsData s t ∧ keepsSequencer s t ∧ keepsAgents s t ∧
      (s.DONE = true → received [s.OUT[i]] s t ∧ keepsRecord s t) ∧
      (s.DONE = false → received [0] s t ∧ recordsViolation 3 s t)

/-- 45_host_commands R193: START completes in every state; accepted while `BUSY = 0` it copies and starts, while `BUSY = 1`
it is violation 2 and nothing else. -/
def Obligations.StartCopiesAndRunsUnlessBusy : Prop :=
  ∀ s : State,
    (∀ v : Word, v.getLsbD 0 = true → decodeBus (busWord true 0x20 v) = .start) ∧
    encode .start = some (.bus 0x6000000001) ∧
    ∃ t, exec .start s = .next t ∧ t.S = s.S ∧ t.OUT = s.OUT ∧ keepsAgents s t ∧ received [] s t ∧
      (s.BUSY = false → (∀ i : Fin 16, t.W[i] = s.S[i]) ∧ t.rnd = 0 ∧ t.BUSY = true ∧ t.DONE = false ∧ keepsRecord s t) ∧
      (s.BUSY = true → t.W = s.W ∧ keepsSequencer s t ∧ recordsViolation 2 s t)

/-- 45_host_commands R194, R195: a CTRL write with bit 0 clear changes nothing; a CTRL read returns 0 and changes nothing of
the engine. -/
def Obligations.CtrlNopAndCtrlRead : Prop :=
  ∀ s : State,
    (∀ v : Word, v.getLsbD 0 = false → decodeBus (busWord true 0x20 v) = .wrCtrlNop) ∧
    exec .wrCtrlNop s = .next s ∧
    (∀ v : Word, decodeBus (busWord false 0x20 v) = .rdCtrl) ∧
    ∃ t, exec .rdCtrl s = .next t ∧ received [0] s t ∧ keepsEngine s t ∧ keepsAgents s t

/-- 45_host_commands R196: RD_STATUS returns `BUSY + 2*DONE + 4*ERR + 16*CAUSE` and changes nothing of the engine. -/
def Obligations.RdStatusReturnsTheFlags : Prop :=
  ∀ s : State,
    (∀ v : Word, decodeBus (busWord false 0x21 v) = .rdStatus) ∧
    ∃ (t : State) (r : Word), exec .rdStatus s = .next t ∧ received [r] s t ∧
      r.toNat = s.BUSY.toNat + 2 * s.DONE.toNat + 4 * s.ERR.toNat + 16 * s.CAUSE.toNat ∧
      keepsEngine s t ∧ keepsAgents s t

/-- 45_host_commands R197, R198: a write to OUT or STATUS is violation 4 in every state and writes nothing. -/
def Obligations.ReadOnlyWritesAreViolation4 : Prop :=
  ∀ (i : Fin 16) (v : Word) (s : State),
    decodeBus (busWord true (outAddr i) v) = .wrOut i v ∧
    decodeBus (busWord true 0x21 v) = .wrStatus v ∧
    (∃ t, exec (.wrOut i v) s = .next t ∧ recordsViolation 4 s t ∧
      keepsData s t ∧ keepsSequencer s t ∧ keepsAgents s t ∧ received [] s t) ∧
    (∃ t, exec (.wrStatus v) s = .next t ∧ recordsViolation 4 s t ∧
      keepsData s t ∧ keepsSequencer s t ∧ keepsAgents s t ∧ received [] s t)

/-- 45_host_commands R199, R200: an access to a reserved address is violation 5 in every state; a read returns 0, a write
stores nothing. -/
def Obligations.ReservedAccessesAreViolation5 : Prop :=
  ∀ (a : BitVec 6) (v : Word) (s : State), 0x22 ≤ a.toNat →
    decodeBus (busWord false a v) = .rdRsvd a ∧
    decodeBus (busWord true a v) = .wrRsvd a v ∧
    (∃ t, exec (.rdRsvd a) s = .next t ∧ received [0] s t ∧ recordsViolation 5 s t ∧
      keepsData s t ∧ keepsSequencer s t ∧ keepsAgents s t) ∧
    (∃ t, exec (.wrRsvd a v) s = .next t ∧ received [] s t ∧ recordsViolation 5 s t ∧
      keepsData s t ∧ keepsSequencer s t ∧ keepsAgents s t)

/-! ### The violation record -/

/-- 60_exceptions R227: ERR and CAUSE are sticky: once a violation is recorded every operation but RESET leaves the record as
it is; RESET clears it. -/
def Obligations.OnlyResetClearsTheRecord : Prop :=
  (∀ (i : Instr) (s t : State), exec i s = .next t → s.ERR = true → i ≠ .reset → t.ERR = true ∧ t.CAUSE = s.CAUSE) ∧
  (∀ s t : State, exec .reset s = .next t → t.ERR = false ∧ t.CAUSE = 0)

/-- 60_exceptions R222: a violation is newly recorded only by the commands of the table, under the table's condition, with the
table's code. That a pseudo-instruction counts as the command it performs first is log entry 13: the model's choice. -/
def Obligations.CausesAreThoseOfTheTable : Prop :=
  ∀ (i : Instr) (s t : State), exec i s = .next t → s.ERR = false → t.ERR = true →
    (t.CAUSE = 1 ∧ s.BUSY = true ∧ ((∃ j v, i = .wrState j v) ∨ (∃ ws, i = .loadstate ws) ∨ (∃ c, i = .setctr c))) ∨
    (t.CAUSE = 2 ∧ s.BUSY = true ∧ (i = .start ∨ i = .runblock)) ∨
    (t.CAUSE = 3 ∧ s.DONE = false ∧ ((∃ j, i = .rdOut j) ∨ i = .readout)) ∨
    (t.CAUSE = 4 ∧ ((∃ j v, i = .wrOut j v) ∨ (∃ v, i = .wrStatus v))) ∨
    (t.CAUSE = 5 ∧ ((∃ a, i = .rdRsvd a) ∨ (∃ a v, i = .wrRsvd a v)))

/-- 60_exceptions R221: the operation that records a violation changes no data register, no flag of the transform and not the
round counter. -/
def Obligations.ViolationsDisturbNothing : Prop :=
  ∀ (i : Instr) (s t : State), exec i s = .next t → s.ERR = false → t.ERR = true → keepsData s t ∧ keepsSequencer s t

/-- 10_state R28: ERR and CAUSE influence no other part of the state: with another record the same operation does the same to
everything else, and only a STATUS reading (RD_STATUS, POLL) may answer differently. For RESET, whose words in S, W and OUT the
spec leaves open, that the two states draw equal words is log entry 2: the model's choice. -/
def Obligations.RecordInfluencesNothingElse : Prop :=
  ∀ (i : Instr) (s t : State) (e : Bool) (c : BitVec 3), exec i s = .next t →
    ∃ t', exec i { s with ERR := e, CAUSE := c } = .next t' ∧
      keepsData t t' ∧ keepsSequencer t t' ∧ keepsAgents t t' ∧
      (i ≠ .rdStatus → i ≠ .poll → t'.responses = t.responses)

/-! ### The register window -/

/-- What WR_STATE does to the window: `STATE[i]` reads as the value written while `BUSY = 0`; every other address, STATUS
apart, reads as before; while `BUSY = 1` so does `STATE[i]`; STATUS reads as before where no violation is newly recorded. -/
def Obligations.WrStateWritesOneAddress : Prop :=
  ∀ (i : Fin 16) (v : Word) (s t : State), exec (.wrState i v) s = .next t →
    (s.BUSY = false → readValue (stateAddr i) t = v) ∧
    (s.BUSY = true → readValue (stateAddr i) t = readValue (stateAddr i) s) ∧
    (∀ a : BitVec 6, a ≠ stateAddr i → a ≠ 0x21 → readValue a t = readValue a s) ∧
    (s.BUSY = false ∨ s.ERR = true → readValue 0x21 t = readValue 0x21 s)

/-- The commands that store nothing: after RD_STATE, WR_CTRL_NOP, RD_CTRL, RD_STATUS every address of the window reads as
before; after RD_OUT, WR_OUT, WR_STATUS, RD_RSVD, WR_RSVD every address but STATUS does, and STATUS too after RD_OUT while
`DONE = 1` and after any of the five while `ERR = 1` (20_memory R56). -/
def Obligations.StorelessCommandsKeepTheWindow : Prop :=
  ∀ (i : Instr) (s t : State), exec i s = .next t →
    ((∃ j, i = .rdState j) ∨ i = .wrCtrlNop ∨ i = .rdCtrl ∨ i = .rdStatus → ∀ a, readValue a t = readValue a s) ∧
    ((∃ j, i = .rdOut j) ∨ (∃ j v, i = .wrOut j v) ∨ (∃ v, i = .wrStatus v) ∨ (∃ a, i = .rdRsvd a) ∨
      (∃ a v, i = .wrRsvd a v) →
      (∀ a, a ≠ 0x21 → readValue a t = readValue a s) ∧
      (s.ERR = true → readValue 0x21 t = readValue 0x21 s)) ∧
    ((∃ j, i = .rdOut j) → s.DONE = true → ∀ a, readValue a t = readValue a s)

/-- 20_memory R51, R53, R56: `MemRead(addr, 1)` completes at every address and in every state, returns what the window holds
there, and has no effect but the violation an ungated OUT or a reserved address records; another size is refused. -/
def Obligations.MemReadReturnsTheWindow : Prop :=
  ∀ (a : BitVec 6) (s : State),
    (∃ t, memRead a 1 s = .next t ∧ received [readValue a s] s t ∧
      keepsData s t ∧ keepsSequencer s t ∧ keepsAgents s t ∧
      (readViolation a s = none → keepsRecord s t) ∧
      (∀ c, readViolation a s = some c → recordsViolation c.code s t)) ∧
    (∀ n, n ≠ 1 → memRead a n s = .refused .accessWidth) ∧
    (∀ n v, n ≠ 1 → memWrite a n v s = .refused .accessWidth)

/-! ### The sequencer -/

/-- 43_block_transform R167: E-ROUND, while `BUSY = 1` and `rnd < 20`, applies the round `rnd` selects to W and advances the
counter, and changes nothing else. -/
def Obligations.ERoundMixesAndAdvances : Prop :=
  ∀ s : State, s.BUSY = true → s.rnd.toNat < 20 →
    ∃ t, exec .eRound s = .next t ∧
      (s.rnd.getLsbD 0 = false → t.W = colround s.W) ∧
      (s.rnd.getLsbD 0 = true → t.W = diaground s.W) ∧
      t.W = roundFn s.rnd.toNat s.W ∧ t.rnd.toNat = s.rnd.toNat + 1 ∧
      t.S = s.S ∧ t.OUT = s.OUT ∧ t.BUSY = true ∧ t.DONE = s.DONE ∧ keepsRecord s t ∧ keepsAgents s t ∧ received [] s t

/-- 43_block_transform R168: E-FINAL, while `BUSY = 1` and `rnd = 20`, writes every `OUT[i] = S[i] + W[i] mod 2^32`, clears
BUSY, sets DONE, clears `rnd`, and changes nothing else. -/
def Obligations.EFinalAddsAndFinishes : Prop :=
  ∀ s : State, s.BUSY = true → s.rnd.toNat = 20 →
    ∃ t, exec .eFinal s = .next t ∧
      (∀ i : Fin 16, t.OUT[i].toNat = (s.S[i].toNat + s.W[i].toNat) % 2 ^ 32) ∧
      t.BUSY = false ∧ t.DONE = true ∧ t.rnd = 0 ∧
      t.S = s.S ∧ t.W = s.W ∧ keepsRecord s t ∧ keepsAgents s t ∧ received [] s t

/-- 30_encoding R90: the selected entry COLROUND, DIAGROUND or FINALADD completes with its micro-operation, and is the
ENGINE's step: E-ROUND below index 20, E-FINAL at 20. -/
def Obligations.SelectedEntriesAreTheEnginesSteps : Prop :=
  ∀ (s : State) (k : BitVec 5), s.BUSY = true → s.rnd = k →
    (k.toNat < 20 → k.getLsbD 0 = false →
      exec (.colround k) s = .next { s with W := colround s.W, rnd := k + 1 } ∧ exec (.colround k) s = exec .eRound s) ∧
    (k.toNat < 20 → k.getLsbD 0 = true →
      exec (.diaground k) s = .next { s with W := diaground s.W, rnd := k + 1 } ∧ exec (.diaground k) s = exec .eRound s) ∧
    (k.toNat = 20 →
      exec .finaladd s = .next { s with OUT := finaladd s.S s.W, BUSY := false, DONE := true, rnd := 0 } ∧
      exec .finaladd s = exec .eFinal s)

/-- 30_encoding R91: indices 21 to 31 have no entry. The ENGINE is stuck there: SEQ_RSVD faults in every state, and so does a
step on an ENGINE turn. They are unreachable: from a state that meets the control invariant no step is stuck, and every step
leaves `rnd` at most 20. -/
def Obligations.ReservedIndicesAreStuck : Prop :=
  (∀ k : BitVec 5, 20 < k.toNat → decodeSeq k = .seqRsvd k) ∧
  (∀ (k : BitVec 5) (s : State), exec (.seqRsvd k) s = .fault .engineStuck) ∧
  (∀ (s : State) (us : List Turn), s.turns = .engine :: us → s.BUSY = true → 20 < s.rnd.toNat → step s = .fault .engineStuck) ∧
  (∀ s : State, ControlInv s → step s ≠ .fault .engineStuck) ∧
  (∀ s t : State, ControlInv s → step s = .next t → t.rnd.toNat ≤ 20)

/-- 70_reset_and_hazards R250: RESET completes in every state and clears BUSY, DONE, ERR, CAUSE and `rnd`; of the data
registers nothing is said. -/
def Obligations.ResetClearsTheControlState : Prop :=
  ∀ s : State, ∃ t, exec .reset s = .next t ∧
    t.BUSY = false ∧ t.DONE = false ∧ t.ERR = false ∧ t.CAUSE = 0 ∧ t.rnd = 0

/-- RESET is the engine's event: what the host has received, its program and the interleaving are as they were (log entry 14:
the model's choice). -/
def Obligations.ResetLeavesTheHostsSide : Prop :=
  ∀ s t : State, exec .reset s = .next t →
    t.responses = s.responses ∧ t.result = s.result ∧ t.program = s.program ∧ t.turns = s.turns

/-- An ENGINE step that is not enabled changes nothing: E-ROUND, E-FINAL, and the entries that `rnd` does not select
(43_block_transform R167, R168 give the conditions; that an attempt is a step without effect is log entry 5). -/
def Obligations.DisabledEngineStepsChangeNothing : Prop :=
  ∀ (s : State) (k : BitVec 5),
    (s.BUSY = false ∨ 20 ≤ s.rnd.toNat → exec .eRound s = .next s) ∧
    (s.BUSY = false ∨ s.rnd.toNat ≠ 20 → exec .eFinal s = .next s ∧ exec .finaladd s = .next s) ∧
    (s.BUSY = false ∨ s.rnd ≠ k → exec (.colround k) s = .next s ∧ exec (.diaground k) s = .next s)

/-! ### The functions -/

/-- 40_arx_primitives R110, R111, R112: ADD32, XOR32 and ROTL32 complete for all operands of their domain, with the sum modulo
2^32, the bitwise exclusive or, the rotation, and nothing of the engine changed; ROTL32 outside 1 to 31 is refused. -/
def Obligations.ArxPrimitivesComplete : Prop :=
  ∀ (x y : Word) (n : Nat) (s : State),
    (∃ t r, exec (.add32 x y) s = .next t ∧ t.result = [r] ∧ r.toNat = (x.toNat + y.toNat) % 2 ^ 32 ∧
      keepsEngine s t ∧ received [] s t ∧ t.program = s.program ∧ t.turns = s.turns ∧ t.draws = s.draws) ∧
    (∃ t r, exec (.xor32 x y) s = .next t ∧ t.result = [r] ∧ (∀ k, k < 32 → r.getLsbD k = (x.getLsbD k != y.getLsbD k)) ∧
      keepsEngine s t ∧ received [] s t ∧ t.program = s.program ∧ t.turns = s.turns ∧ t.draws = s.draws) ∧
    (0 < n → n < 32 →
      ∃ t r, exec (.rotl32 x n) s = .next t ∧ t.result = [r] ∧
        (∀ k, k < 32 → r.getLsbD ((k + n) % 32) = x.getLsbD k) ∧
        keepsEngine s t ∧ received [] s t ∧ t.program = s.program ∧ t.turns = s.turns ∧ t.draws = s.draws) ∧
    (n = 0 ∨ 32 ≤ n → exec (.rotl32 x n) s = .refused .rotateAmount)

/-- 40_arx_primitives R112, the stated property: rotating by `n` and then by `32 - n` gives the word back. -/
def Obligations.RotationsUndoEachOther : Prop :=
  ∀ (x : Word) (n : Nat), 0 < n → n < 32 → rotl32 (rotl32 x n) (32 - n) = x

/-- 41_quarter_round R131, R132: QR completes and delivers the closed form of R131, which is also what the twelve wired
operations of R132 compute in their order. -/
def Obligations.QuarterRoundIsItsClosedForm : Prop :=
  ∀ (a b c d : Word) (s : State),
    let a1 := add32 a b
    let d1 := rotl32 (xor32 d a1) 16
    let c1 := add32 c d1
    let b1 := rotl32 (xor32 b c1) 12
    let a2 := add32 a1 b1
    let d2 := rotl32 (xor32 d1 a2) 8
    let c2 := add32 c1 d2
    let b2 := rotl32 (xor32 b1 c2) 7
    (∃ t, exec (.qr a b c d) s = .next t ∧ t.result = [a2, b2, c2, d2] ∧
      keepsEngine s t ∧ received [] s t ∧ t.program = s.program ∧ t.turns = s.turns ∧ t.draws = s.draws) ∧
    qrWiring.foldl MicroOp.run ⟨a, b, c, d⟩ = ⟨a2, b2, c2, d2⟩

/-- 41_quarter_round R135: QR is a bijection on quadruples of words; the lines run backwards undo it, on both sides. -/
def Obligations.QuarterRoundIsABijection : Prop :=
  Function.Bijective (fun q : Quad => qr q.a q.b q.c q.d) ∧
  (∀ a b c d : Word, let q := qr a b c d; qrInv q.a q.b q.c q.d = ⟨a, b, c, d⟩) ∧
  (∀ a b c d : Word, let q := qrInv a b c d; qr q.a q.b q.c q.d = ⟨a, b, c, d⟩)

/-- 42_rounds_and_schedule R141 to R145: in a round each lane's four registers hold QR of the four words they held before, by
the column or the diagonal table; the tables are the closed forms given, and in each every register occurs exactly once. -/
def Obligations.RoundsAreLaneByLaneQuarterRounds : Prop :=
  (∀ (sel : Bool) (j : Fin 4) (X : Block),
    laneRead (if sel then diaground X else colround X) (laneIndex sel j) =
      let q := laneRead X (laneIndex sel j)
      qr q.a q.b q.c q.d) ∧
  (∀ j : Fin 4, let l := laneIndex false j
    (l.ia.val, l.ib.val, l.ic.val, l.id.val) = (j.val, 4 + j.val, 8 + j.val, 12 + j.val)) ∧
  (∀ j : Fin 4, let l := laneIndex true j
    (l.ia.val, l.ib.val, l.ic.val, l.id.val) =
      (j.val, 4 + (j.val + 1) % 4, 8 + (j.val + 2) % 4, 12 + (j.val + 3) % 4)) ∧
  (∀ sel : Bool, ((List.finRange 4).flatMap fun j =>
    let l := laneIndex sel j
    [l.ia, l.ib, l.ic, l.id]).Perm (List.finRange 16))

/-- 42_rounds_and_schedule R147: the result of a round does not depend on the order in which its four lanes are evaluated, one
after another in place. -/
def Obligations.LaneOrderDoesNotMatter : Prop :=
  ∀ (sel : Bool) (order : List (Fin 4)) (X : Block), order.Perm [0, 1, 2, 3] →
    mixInOrder sel order X = if sel then diaground X else colround X

/-- 42_rounds_and_schedule R146, R148: ROUND, DOUBLEROUND and ROUNDS complete on every operand and deliver the state their
rules define, and 20 rounds are 10 double rounds. -/
def Obligations.RoundFunctionsComplete : Prop :=
  (∀ (k : Fin 20) (X : Block) (s : State),
    ∃ t, exec (.round k X) s = .next t ∧
      t.result = (if k.val % 2 = 0 then colround X else diaground X).toList ∧
      keepsEngine s t ∧ received [] s t ∧ t.program = s.program ∧ t.turns = s.turns ∧ t.draws = s.draws) ∧
  (∀ (X : Block) (s : State),
    ∃ t, exec (.doubleround X) s = .next t ∧ t.result = (diaground (colround X)).toList ∧
      keepsEngine s t ∧ received [] s t ∧ t.program = s.program ∧ t.turns = s.turns ∧ t.draws = s.draws) ∧
  (∀ (X : Block) (n : Fin 21) (s : State),
    ∃ t, exec (.rounds X n) s = .next t ∧ t.result = (roundsFn X n.val).toList ∧
      keepsEngine s t ∧ received [] s t ∧ t.program = s.program ∧ t.turns = s.turns ∧ t.draws = s.draws) ∧
  (∀ X : Block, roundsFn X 0 = X) ∧
  (∀ (X : Block) (n : Nat), roundsFn X (n + 1) = if n % 2 = 0 then colround (roundsFn X n) else diaground (roundsFn X n)) ∧
  (∀ X : Block, roundsFn X 20 = doubleround^[10] X)

/-- 42_rounds_and_schedule R150: every round function is a bijection on 16-word states and maps the all-zero state to
itself. -/
def Obligations.RoundFunctionsAreBijections : Prop :=
  (Function.Bijective colround ∧ colround (Vector.replicate 16 0) = Vector.replicate 16 0) ∧
  (Function.Bijective diaground ∧ diaground (Vector.replicate 16 0) = Vector.replicate 16 0) ∧
  (∀ k, Function.Bijective (roundFn k) ∧ roundFn k (Vector.replicate 16 0) = Vector.replicate 16 0) ∧
  (Function.Bijective doubleround ∧ doubleround (Vector.replicate 16 0) = Vector.replicate 16 0) ∧
  (∀ n, Function.Bijective (roundsFn · n) ∧ roundsFn (Vector.replicate 16 0) n = Vector.replicate 16 0)

/-- 43_block_transform R160: COPY completes in every state and leaves every `W[i] = S[i]`, and nothing else changed. -/
def Obligations.CopyFillsTheWorkingRegisters : Prop :=
  ∀ s : State, ∃ t, exec .copy s = .next t ∧ (∀ i : Fin 16, t.W[i] = s.S[i]) ∧
    t.S = s.S ∧ t.OUT = s.OUT ∧ keepsSequencer s t ∧ keepsRecord s t ∧ keepsAgents s t ∧ received [] s t

/-- 43_block_transform R164, R165: BLOCK completes on every 16-word state and delivers `X[i] + ROUNDS(X, 20)[i] mod 2^32`
word by word; the additive property; the all-zero state maps to itself. -/
def Obligations.BlockAddsTheStateToTwentyRounds : Prop :=
  (∀ (X : Block) (s : State), ∃ t Y, exec (.block X) s = .next t ∧ t.result = Vector.toList (n := 16) Y ∧
    (∀ i : Fin 16, Y[i].toNat = (X[i].toNat + (roundsFn X 20)[i].toNat) % 2 ^ 32) ∧
    keepsEngine s t ∧ received [] s t ∧ t.program = s.program ∧ t.turns = s.turns ∧ t.draws = s.draws) ∧
  (∀ (X : Block) (i : Fin 16), (blockFn X)[i] - X[i] = (roundsFn X 20)[i]) ∧
  blockFn (Vector.replicate 16 0) = Vector.replicate 16 0

/-- 44_endianness R180, R181: BSWAP32 completes, reverses the four bytes, and is its own inverse. -/
def Obligations.ByteSwapReversesAndInverts : Prop :=
  ∀ (w : Word) (s : State),
    (∃ t r, exec (.bswap32 w) s = .next t ∧ t.result = [r] ∧
      r.extractLsb' 24 8 = w.extractLsb' 0 8 ∧ r.extractLsb' 16 8 = w.extractLsb' 8 8 ∧
      r.extractLsb' 8 8 = w.extractLsb' 16 8 ∧ r.extractLsb' 0 8 = w.extractLsb' 24 8 ∧
      keepsEngine s t ∧ received [] s t ∧ t.program = s.program ∧ t.turns = s.turns ∧ t.draws = s.draws) ∧
    bswap32 (bswap32 w) = w

/-- The host's side: a literal byte-swapped is the little-endian word of its wire bytes (44_endianness R184); the state a host
builds is the four constants of 10_state R22 and then the swapped literals (R183); the 64 keystream bytes are each word's bytes, least significant first
(R185, general knowledge of the spec, log entry 20). -/
def Obligations.HostSideByteOrder : Prop :=
  (∀ p0 p1 p2 p3 : Byte, bswap32 (literalWord p0 p1 p2 p3) = wireWord p0 p1 p2 p3) ∧
  (∀ L : Vector Word 12,
    (initialState L)[0] = 0x61707865 ∧ (initialState L)[1] = 0x3320646e ∧
    (initialState L)[2] = 0x79622d32 ∧ (initialState L)[3] = 0x6b206574 ∧
    ∀ i : Fin 12, (initialState L)[4 + i.val] = bswap32 L[i]) ∧
  (∀ (o : Block) (i : Fin 16) (k : Fin 4), (keystream o)[4 * i.val + k.val]? = some (keystreamByte o i k))

/-! ### Pseudo-instructions -/

/-- 30_encoding R96: each pseudo-instruction completes in every state, performing the first command of its expansion and
leaving the rest in front of the host's program (log entry 13: that form is the model's); POLL repeats until bit 1 of the
STATUS word it has read is set. -/
def Obligations.PseudoInstructionsPerformTheirExpansion : Prop :=
  ∀ (ws : Block) (c : Word) (s : State),
    (∃ t, exec (.loadstate ws) s = .next t ∧
      exec (.wrState 0 ws[(0 : Fin 16)]) { s with program := loadstateRest ws ++ s.program } = .next t ∧
      (∀ i : Fin 16, i ≠ 0 → (loadstateRest ws)[i.val - 1]? = some (.command (assemble (.wrState i ws[i])))) ∧
      (loadstateRest ws).length = 15) ∧
    (∃ t, exec .readout s = .next t ∧
      exec (.rdOut 0) { s with program := readoutRest ++ s.program } = .next t ∧
      (∀ i : Fin 16, i ≠ 0 → readoutRest[i.val - 1]? = some (.command (assemble (.rdOut i)))) ∧
      readoutRest.length = 15) ∧
    (∃ t, exec .runblock s = .next t ∧ exec .start { s with program := .poll :: .readout :: s.program } = .next t) ∧
    (∃ t, exec (.setctr c) s = .next t ∧ exec (.wrState 12 c) s = .next t) ∧
    (∃ t, exec .poll s = .next t ∧
      (s.DONE = true → exec .rdStatus s = .next t) ∧
      (s.DONE = false → exec .rdStatus { s with program := .poll :: s.program } = .next t) ∧
      received [statusWord s] s t)

/-- LOADSTATE issued while no transform runs leaves, after its sixteen commands, `S = (w0, ..., w15)` and everything else as it
was (30_encoding R96). That with no turn laid down the HOST goes on is log entry 4, and that its commands are sixteen steps is
log entry 13: the model's choices. -/
def Obligations.LoadstateLoadsAllSixteenWords : Prop :=
  ∀ (ws : Block) (rest : List HostOp) (s : State),
    s.BUSY = false → s.turns = [] → s.program = .loadstate ws :: rest →
    runFor 16 s = .next { s with S := ws, program := rest }

/-- READOUT issued while a result is ready returns `OUT[0]` to `OUT[15]` in that order and changes nothing of the engine
(30_encoding R96). That with no turn laid down the HOST goes on is log entry 4, and that its commands are sixteen steps is log
entry 13: the model's choices. -/
def Obligations.ReadoutReturnsTheWholeOutput : Prop :=
  ∀ (rest : List HostOp) (s : State),
    s.BUSY = false → s.DONE = true → s.turns = [] → s.program = .readout :: rest →
    ∃ t, runFor 16 s = .next t ∧ received s.OUT.toList s t ∧ keepsEngine s t ∧ t.program = rest ∧ t.turns = []

/-- RUNBLOCK from any state without a running transform: after START, 21 ENGINE steps, one POLL reading and sixteen reads the
host holds the STATUS word and the sixteen words of `BLOCK(S)`, and S is unchanged (30_encoding R96, 70_reset_and_hazards
R262). That with no turn laid down the ENGINE goes on while BUSY and else the HOST is log entry 4, and that each command of the
expansion is a step is log entry 13: the model's choices. -/
def Obligations.RunblockDeliversTheBlock : Prop :=
  ∀ (rest : List HostOp) (s : State),
    s.BUSY = false → s.turns = [] → s.program = .runblock :: rest →
    ∃ t, runFor 39 s = .next t ∧ received (statusWord t :: (blockFn s.S).toList) s t ∧
      t.S = s.S ∧ t.OUT = blockFn s.S ∧ isFinished t ∧ t.rnd = 0 ∧ keepsRecord s t ∧ t.program = rest ∧ t.turns = []

/-! ### Invariants -/

/-- 10_state R33, R32: after reset BUSY, DONE, ERR, CAUSE and `rnd` are 0, STATUS reads 0, CTRL reads 0, and the invariants of
the control state and of the working registers hold. -/
def Obligations.ResetStateMeetsTheInvariants : Prop :=
  State.reset.BUSY = false ∧ State.reset.DONE = false ∧ State.reset.ERR = false ∧ State.reset.CAUSE = 0 ∧
  State.reset.rnd = 0 ∧ readValue 0x21 State.reset = 0 ∧ readValue 0x20 State.reset = 0 ∧
  ControlInv State.reset ∧ WorkingInv State.reset

/-- 10_state R32 (I-a) to (I-d): every step, of whichever agent, keeps the invariants of the control state. -/
def Obligations.EveryStepKeepsTheControlInvariant : Prop :=
  ∀ s t : State, ControlInv s → step s = .next t → ControlInv t

/-- 10_state R32 (I-e): every step keeps `BUSY = 1` implies `W = ROUNDS(S, rnd)`, in states that meet the control
invariant. -/
def Obligations.EveryStepKeepsTheWorkingInvariant : Prop :=
  ∀ s t : State, ControlInv s → WorkingInv s → step s = .next t → WorkingInv t

/-- 10_state R32 (I-f): from the accepted START on `X` and until the next accepted START or RESET, every step keeps: while the
transform runs `S = X` and `W = ROUNDS(X, rnd)`, and once it is done `OUT = BLOCK(X)`. -/
def Obligations.TransformKeepsItsStartingState : Prop :=
  (∀ s t : State, s.BUSY = false → exec .start s = .next t → TransformOf s.S t) ∧
  (∀ (X : Block) (s t : State), TransformOf X s → step s = .next t → nextTurn s ≠ .reset →
    (nextTurn s = .host → ∀ op rest, s.program = op :: rest → ¬acceptsStart op.instr s) → TransformOf X t)

/-- 20_memory R61, 60_exceptions R220: in every state that meets the control invariant the machine can go on, for any number
of steps, whatever program and interleaving are laid down; no command waits and nothing stops it. That a turn without an
enabled step (`BUSY = 0` and an empty program, as right after reset) still counts as a step, one that changes nothing, is log
entry 5: the model's choice. -/
def Obligations.RunsNeverStop : Prop :=
  ∀ (n : Nat) (s : State), ControlInv s → ∃ t, runFor n s = .next t ∧ ControlInv t

/-- 43_block_transform R169: a transform, end to end, under every interleaving. After an accepted START on `X = S`, whatever
commands the host interleaves, once the ENGINE has had 21 turns without a RESET the state has `OUT = BLOCK(X)`, `S = X`,
`W = ROUNDS(X, 20)`, `BUSY = 0`, `DONE = 1`, `rnd = 0`. -/
def Obligations.TransformUnderEveryInterleaving : Prop :=
  ∀ (s : State) (prog : List HostOp) (us rest : List Turn),
    s.BUSY = false → s.program = .command 0x6000000001 :: prog →
    s.turns = .host :: us ++ .engine :: rest → noReset us → us.count .engine = 20 →
    ∃ t, runFor (us.length + 2) s = .next t ∧ t.S = s.S ∧ t.W = roundsFn s.S 20 ∧ t.OUT = blockFn s.S ∧
      isFinished t ∧ t.rnd = 0 ∧ t.turns = rest

/-- 45_host_commands R202, 70_reset_and_hazards R257: a host that keeps to LOADSTATE, START, POLL, READOUT, or for a further
block to SETCTR, START, POLL, READOUT, never raises a violation, whatever interleaving without RESET is laid down, and whenever
its program is finished the last sixteen words it received are the words of `BLOCK` of the state it loaded, or of the state
there was with the new counter. The pseudo-instructions run in the form of log entry 13, and what follows the interleaving laid
down is log entry 4: the model's choices. -/
def Obligations.CanonicalSequenceIsCleanAndCorrect : Prop :=
  (∀ (ws : Block) (n : Nat) (s t : State),
    s.BUSY = false → s.ERR = false → s.program = [.loadstate ws, .runblock] → noReset s.turns → runFor n s = .next t →
    t.ERR = false ∧ (t.program = [] → t.responses.take 16 = (blockFn ws).toList.reverse ∧ t.S = ws ∧ t.OUT = blockFn ws)) ∧
  (∀ (c : Word) (n : Nat) (s t : State),
    s.BUSY = false → s.ERR = false → s.program = [.setctr c, .runblock] → noReset s.turns → runFor n s = .next t →
    t.ERR = false ∧ (t.program = [] →
      t.responses.take 16 = (blockFn (s.S.set 12 c)).toList.reverse ∧ t.S = s.S.set 12 c ∧ t.OUT = blockFn (s.S.set 12 c)))

/-! ### Rules about the whole machine -/

/-- 10_state R34: who writes what. S changes only by a host write while `BUSY = 0` or a RESET; OUT only by the enabled final
addition or a RESET; W only by a copy, an enabled round or a RESET; `rnd`, BUSY and DONE only by an accepted START, an enabled
step of the ENGINE or a RESET. That COPY by itself writes W in any state is log entry 7, and that a pseudo-instruction counts as
the command it performs first is log entry 13: the model's choices. -/
def Obligations.RegistersHaveTheirOnlyWriters : Prop :=
  ∀ (i : Instr) (s t : State), exec i s = .next t → i ≠ .reset →
    (t.S ≠ s.S → s.BUSY = false ∧ ((∃ j v, i = .wrState j v) ∨ (∃ ws, i = .loadstate ws) ∨ (∃ c, i = .setctr c))) ∧
    (t.OUT ≠ s.OUT → s.BUSY = true ∧ s.rnd.toNat = 20 ∧ (i = .eFinal ∨ i = .finaladd)) ∧
    (t.W ≠ s.W → (s.BUSY = false ∧ (i = .start ∨ i = .runblock)) ∨ i = .copy ∨
      (s.BUSY = true ∧ ((i = .eRound ∧ s.rnd.toNat < 20) ∨ i = .colround s.rnd ∨ i = .diaground s.rnd))) ∧
    (¬keepsSequencer s t → (s.BUSY = false ∧ (i = .start ∨ i = .runblock)) ∨
      (s.BUSY = true ∧ ((i = .eRound ∧ s.rnd.toNat < 20) ∨ i = .colround s.rnd ∨ i = .diaground s.rnd ∨
        (s.rnd.toNat = 20 ∧ (i = .eFinal ∨ i = .finaladd)))))

/-- 10_state R23, R34: no host operation reveals W or `rnd`, nor OUT before DONE. Two states that differ only in W, `rnd` and,
while `DONE = 0`, OUT are alike to the host: every operation of a host program completes in both, and afterwards they again
differ only so. -/
def Obligations.HiddenStateIsUnobservable : Prop :=
  ∀ (op : HostOp) (s : State) (w o : Block) (r : BitVec 5), (s.DONE = true → o = s.OUT) →
    ∃ t t', exec op.instr s = .next t ∧ exec op.instr { s with W := w, rnd := r, OUT := o } = .next t' ∧
      { t' with W := t.W, rnd := t.rnd, OUT := t.OUT } = t ∧ (t.DONE = true → t'.OUT = t.OUT)

/-- The program P5 of 95_test_vectors: START followed at once by a write to STATE[12]. Both families of outcomes are runs of
the model, the write dropped with violation 1 and the write stored, and in both OUT is the block of the state that was
started (20_memory R60, 70_reset_and_hazards R260). -/
def Obligations.RacingWriteHasBothOutcomesAndOneResult : Prop :=
  ∀ s : State, s.BUSY = false → s.ERR = false → s.program = [.command 0x6000000001, .command 0x4C00000002] →
    (∃ us n t, noReset us ∧ runFor n { s with turns := us } = .next t ∧ t.program = [] ∧ isFinished t ∧
      t.S = s.S ∧ t.OUT = blockFn s.S ∧ t.ERR = true ∧ t.CAUSE = 1) ∧
    (∃ us n t, noReset us ∧ runFor n { s with turns := us } = .next t ∧ t.program = [] ∧ isFinished t ∧
      t.S = s.S.set 12 2 ∧ t.OUT = blockFn s.S ∧ t.ERR = false)

/-- 20_memory R64: engines share nothing: a step of one is its own step and leaves every other as it was (engines as a vector:
log entry 18, the model's choice). -/
def Obligations.EnginesShareNothing : Prop :=
  ∀ (n : Nat) (k : Fin n) (es fs : Vector State n), stepEngine k es = .next fs →
    step es[k] = .next fs[k] ∧ ∀ j : Fin n, j ≠ k → fs[j] = es[j]
end

