-- ==== Sys2Proof/Laws/Datapath.lean ====
section
/-! SUPPORT. The datapath's small lemmas: lanes are disjoint, a round lane by lane, the block transform word by word. -/

namespace Sys2Proof.Machine

/-- Word `i` of a tabulated state. -/
theorem tabulate_get (f : Fin 16 → Word) (i : Fin 16) : (tabulate f)[i] = f i := by
  revert i
  simp only [Fin.forall_fin_succ]
  exact ⟨rfl, rfl, rfl, rfl, rfl, rfl, rfl, rfl, rfl, rfl, rfl, rfl, rfl, rfl, rfl, rfl, fun i => i.elim0⟩

theorem finaladd_get (X Y : Block) (i : Fin 16) : (finaladd X Y)[i] = add32 X[i] Y[i] := by
  rw [finaladd, tabulate_get]

theorem add32_eq (x y : Word) : add32 x y = x + y := by
  apply BitVec.eq_of_toNat_eq
  simp [add32]

/-- Register `i` after a lane is written back: the lane's word if `i` is one of its four registers, else as before. -/
theorem laneWrite_get (Y : Block) (l : Lane) (q : Quad) (i : Fin 16) :
    (laneWrite Y l q)[i] =
      if i = l.id then q.d else if i = l.ic then q.c else if i = l.ib then q.b else if i = l.ia then q.a else Y[i] := by
  have key : ∀ (Z : Block) (j : Fin 16) (v : Word), (Z.set j v)[i] = if i = j then v else Z[i] := by
    intro Z j v
    simp only [Fin.getElem_fin, Vector.getElem_set]
    simp only [Fin.ext_iff, eq_comm]
  simp only [laneWrite, key]

/-- Blocks are equal when their words are. -/
theorem block_ext {X Y : Block} (h : ∀ i : Fin 16, X[i] = Y[i]) : X = Y := Vector.ext fun i hi => h ⟨i, hi⟩

/-- Word `i` after word `j` is replaced. -/
theorem set_get (X : Block) (j i : Fin 16) (v : Word) : (X.set j v)[i] = if i = j then v else X[i] := by
  simp only [Fin.getElem_fin, Vector.getElem_set, Fin.ext_iff, eq_comm]

/-- Below the word width ROTL32 is the library's rotation. -/
theorem rotl32_eq (v : Word) (n : Nat) (h32 : n < 32) : rotl32 v n = v.rotateLeft n := by
  rw [BitVec.rotateLeft_eq_rotateLeftAux_of_lt h32]
  apply BitVec.eq_of_toNat_eq
  simp only [rotl32, BitVec.rotateLeftAux, BitVec.toNat_ofNat, BitVec.toNat_or, BitVec.toNat_shiftLeft,
    BitVec.toNat_ushiftRight, Nat.shiftLeft_eq, Nat.shiftRight_eq_div_pow]
  exact Nat.mod_eq_of_lt (Nat.or_lt_two_pow (Nat.mod_lt _ (by decide)) (lt_of_le_of_lt (Nat.div_le_self _ _) v.isLt))

/-- The counter does not wrap while a round is enabled. -/
theorem rnd_succ (r : BitVec 5) (h : r.toNat < 20) : (r + 1).toNat = r.toNat + 1 := by
  simp only [BitVec.toNat_add]
  simp
  omega

end Sys2Proof.Machine
end

