-- ==== Sys2Proof/Laws/Decode.lean ====
section
/-! SUPPORT. The fields of a command word, and the address fields. -/

namespace Sys2Proof

/-- Bit `i` of a command word: wdata, then addr, then we (30_encoding R81). -/
theorem busWord_getLsbD (we : Bool) (a : BitVec 6) (v : Word) (i : Nat) :
    (busWord we a v).getLsbD i =
      if i < 32 then v.getLsbD i else if i - 32 < 6 then a.getLsbD (i - 32) else (decide (i = 38) && we) := by
  have h : (busWord we a v).getLsbD i = (BitVec.ofBool we ++ a ++ v : BitVec (1 + 6 + 32)).getLsbD i := rfl
  rw [h]
  simp only [BitVec.getLsbD_append, BitVec.getLsbD_ofBool]
  split
  · rfl
  · split
    · rfl
    · congr 1
      simp only [decide_eq_decide]
      omega

@[simp] theorem busWe_busWord (we : Bool) (a : BitVec 6) (v : Word) : busWe (busWord we a v) = we := by
  simp only [busWe, busWord_getLsbD]
  simp

@[simp] theorem busWdata_busWord (we : Bool) (a : BitVec 6) (v : Word) : busWdata (busWord we a v) = v := by
  apply BitVec.eq_of_getLsbD_eq
  intro i hi
  simp only [busWdata, BitVec.getLsbD_extractLsb', busWord_getLsbD]
  simp [hi]

@[simp] theorem busAddr_busWord (we : Bool) (a : BitVec 6) (v : Word) : busAddr (busWord we a v) = a := by
  apply BitVec.eq_of_getLsbD_eq
  intro i hi
  simp only [busAddr, BitVec.getLsbD_extractLsb', busWord_getLsbD]
  simp [hi]

/-- A command word is its three fields. -/
theorem busWord_fields (w : BitVec 39) : busWord (busWe w) (busAddr w) (busWdata w) = w := by
  apply BitVec.eq_of_getLsbD_eq
  intro i hi
  simp only [busWord_getLsbD, busWe, busAddr, busWdata, BitVec.getLsbD_extractLsb']
  by_cases h : i < 32
  · simp [h]
  · by_cases h6 : i - 32 < 6
    · simp [h, h6, show 32 + (i - 32) = i by omega]
    · obtain rfl : i = 38 := by omega
      simp

@[simp] theorem addrRegion_stateAddr (i : Fin 16) : addrRegion (stateAddr i) = 0 := by revert i; decide
@[simp] theorem addrIndex_stateAddr (i : Fin 16) : addrIndex (stateAddr i) = i := by revert i; decide
@[simp] theorem addrRegion_outAddr (i : Fin 16) : addrRegion (outAddr i) = 1 := by revert i; decide
@[simp] theorem addrIndex_outAddr (i : Fin 16) : addrIndex (outAddr i) = i := by revert i; decide

/-- The regions of the register window: STATE, OUT, CTRL, STATUS, reserved (20_memory R51). -/
theorem addr_cases (a : BitVec 6) :
    (∃ i, a = stateAddr i) ∨ (∃ i, a = outAddr i) ∨ a = 0x20 ∨ a = 0x21 ∨ 0x22 ≤ a.toNat := by
  revert a; decide

/-- A reserved address is in the control region and neither CTRL nor STATUS. -/
theorem reserved_addr (a : BitVec 6) (h : 0x22 ≤ a.toNat) :
    addrRegion a ≠ 0 ∧ addrRegion a ≠ 1 ∧ a ≠ 0x20 ∧ a ≠ 0x21 := by
  revert a; decide

theorem decodeBus_state (we : Bool) (i : Fin 16) (v : Word) :
    decodeBus (busWord we (stateAddr i) v) = if we then .wrState i v else .rdState i := by
  simp [decodeBus]

theorem decodeBus_out (we : Bool) (i : Fin 16) (v : Word) :
    decodeBus (busWord we (outAddr i) v) = if we then .wrOut i v else .rdOut i := by
  simp [decodeBus]

theorem decodeBus_ctrl (we : Bool) (v : Word) :
    decodeBus (busWord we 0x20 v) = if we then (if v.getLsbD 0 then .start else .wrCtrlNop) else .rdCtrl := by
  simp [decodeBus, addrRegion]

theorem decodeBus_status (we : Bool) (v : Word) :
    decodeBus (busWord we 0x21 v) = if we then .wrStatus v else .rdStatus := by
  simp [decodeBus, addrRegion]

theorem decodeBus_reserved (we : Bool) (a : BitVec 6) (v : Word) (h : 0x22 ≤ a.toNat) :
    decodeBus (busWord we a v) = if we then .wrRsvd a v else .rdRsvd a := by
  obtain ⟨h0, h1, h2, h3⟩ := reserved_addr a h
  simp_all [decodeBus]

end Sys2Proof
end

