-- ==== Sys2Proof/Laws/State.lean ====
section
/-! SUPPORT. One lemma per field and shared update: what the field holds afterwards. No later proof unfolds an update. -/

namespace Sys2Proof.Machine

variable (s : State)

/-! ### respond -/

@[simp] theorem respond_S (v : Word) : (respond v s).S = s.S := rfl
@[simp] theorem respond_W (v : Word) : (respond v s).W = s.W := rfl
@[simp] theorem respond_OUT (v : Word) : (respond v s).OUT = s.OUT := rfl
@[simp] theorem respond_rnd (v : Word) : (respond v s).rnd = s.rnd := rfl
@[simp] theorem respond_BUSY (v : Word) : (respond v s).BUSY = s.BUSY := rfl
@[simp] theorem respond_DONE (v : Word) : (respond v s).DONE = s.DONE := rfl
@[simp] theorem respond_ERR (v : Word) : (respond v s).ERR = s.ERR := rfl
@[simp] theorem respond_CAUSE (v : Word) : (respond v s).CAUSE = s.CAUSE := rfl
@[simp] theorem respond_responses (v : Word) : (respond v s).responses = v :: s.responses := rfl
@[simp] theorem respond_result (v : Word) : (respond v s).result = s.result := rfl
@[simp] theorem respond_program (v : Word) : (respond v s).program = s.program := rfl
@[simp] theorem respond_turns (v : Word) : (respond v s).turns = s.turns := rfl
@[simp] theorem respond_draws (v : Word) : (respond v s).draws = s.draws := rfl

/-! ### deliver -/

@[simp] theorem deliver_S (vs : List Word) : (deliver vs s).S = s.S := rfl
@[simp] theorem deliver_W (vs : List Word) : (deliver vs s).W = s.W := rfl
@[simp] theorem deliver_OUT (vs : List Word) : (deliver vs s).OUT = s.OUT := rfl
@[simp] theorem deliver_rnd (vs : List Word) : (deliver vs s).rnd = s.rnd := rfl
@[simp] theorem deliver_BUSY (vs : List Word) : (deliver vs s).BUSY = s.BUSY := rfl
@[simp] theorem deliver_DONE (vs : List Word) : (deliver vs s).DONE = s.DONE := rfl
@[simp] theorem deliver_ERR (vs : List Word) : (deliver vs s).ERR = s.ERR := rfl
@[simp] theorem deliver_CAUSE (vs : List Word) : (deliver vs s).CAUSE = s.CAUSE := rfl
@[simp] theorem deliver_responses (vs : List Word) : (deliver vs s).responses = s.responses := rfl
@[simp] theorem deliver_result (vs : List Word) : (deliver vs s).result = vs := rfl
@[simp] theorem deliver_program (vs : List Word) : (deliver vs s).program = s.program := rfl
@[simp] theorem deliver_turns (vs : List Word) : (deliver vs s).turns = s.turns := rfl
@[simp] theorem deliver_draws (vs : List Word) : (deliver vs s).draws = s.draws := rfl

/-! ### issue -/

@[simp] theorem issue_S (ops : List HostOp) : (issue ops s).S = s.S := rfl
@[simp] theorem issue_W (ops : List HostOp) : (issue ops s).W = s.W := rfl
@[simp] theorem issue_OUT (ops : List HostOp) : (issue ops s).OUT = s.OUT := rfl
@[simp] theorem issue_rnd (ops : List HostOp) : (issue ops s).rnd = s.rnd := rfl
@[simp] theorem issue_BUSY (ops : List HostOp) : (issue ops s).BUSY = s.BUSY := rfl
@[simp] theorem issue_DONE (ops : List HostOp) : (issue ops s).DONE = s.DONE := rfl
@[simp] theorem issue_ERR (ops : List HostOp) : (issue ops s).ERR = s.ERR := rfl
@[simp] theorem issue_CAUSE (ops : List HostOp) : (issue ops s).CAUSE = s.CAUSE := rfl
@[simp] theorem issue_responses (ops : List HostOp) : (issue ops s).responses = s.responses := rfl
@[simp] theorem issue_result (ops : List HostOp) : (issue ops s).result = s.result := rfl
@[simp] theorem issue_program (ops : List HostOp) : (issue ops s).program = ops ++ s.program := rfl
@[simp] theorem issue_turns (ops : List HostOp) : (issue ops s).turns = s.turns := rfl
@[simp] theorem issue_draws (ops : List HostOp) : (issue ops s).draws = s.draws := rfl

/-! ### copyState -/

@[simp] theorem copyState_S : (copyState s).S = s.S := rfl
@[simp] theorem copyState_W : (copyState s).W = s.S := rfl
@[simp] theorem copyState_OUT : (copyState s).OUT = s.OUT := rfl
@[simp] theorem copyState_rnd : (copyState s).rnd = s.rnd := rfl
@[simp] theorem copyState_BUSY : (copyState s).BUSY = s.BUSY := rfl
@[simp] theorem copyState_DONE : (copyState s).DONE = s.DONE := rfl
@[simp] theorem copyState_ERR : (copyState s).ERR = s.ERR := rfl
@[simp] theorem copyState_CAUSE : (copyState s).CAUSE = s.CAUSE := rfl
@[simp] theorem copyState_responses : (copyState s).responses = s.responses := rfl
@[simp] theorem copyState_result : (copyState s).result = s.result := rfl
@[simp] theorem copyState_program : (copyState s).program = s.program := rfl
@[simp] theorem copyState_turns : (copyState s).turns = s.turns := rfl
@[simp] theorem copyState_draws : (copyState s).draws = s.draws := rfl

/-! ### applyRound -/

@[simp] theorem applyRound_S (f : Block → Block) : (applyRound f s).S = s.S := rfl
@[simp] theorem applyRound_W (f : Block → Block) : (applyRound f s).W = f s.W := rfl
@[simp] theorem applyRound_OUT (f : Block → Block) : (applyRound f s).OUT = s.OUT := rfl
@[simp] theorem applyRound_rnd (f : Block → Block) : (applyRound f s).rnd = s.rnd + 1 := rfl
@[simp] theorem applyRound_BUSY (f : Block → Block) : (applyRound f s).BUSY = s.BUSY := rfl
@[simp] theorem applyRound_DONE (f : Block → Block) : (applyRound f s).DONE = s.DONE := rfl
@[simp] theorem applyRound_ERR (f : Block → Block) : (applyRound f s).ERR = s.ERR := rfl
@[simp] theorem applyRound_CAUSE (f : Block → Block) : (applyRound f s).CAUSE = s.CAUSE := rfl
@[simp] theorem applyRound_responses (f : Block → Block) : (applyRound f s).responses = s.responses := rfl
@[simp] theorem applyRound_result (f : Block → Block) : (applyRound f s).result = s.result := rfl
@[simp] theorem applyRound_program (f : Block → Block) : (applyRound f s).program = s.program := rfl
@[simp] theorem applyRound_turns (f : Block → Block) : (applyRound f s).turns = s.turns := rfl
@[simp] theorem applyRound_draws (f : Block → Block) : (applyRound f s).draws = s.draws := rfl

/-! ### finishTransform -/

@[simp] theorem finishTransform_S : (finishTransform s).S = s.S := rfl
@[simp] theorem finishTransform_W : (finishTransform s).W = s.W := rfl
@[simp] theorem finishTransform_OUT : (finishTransform s).OUT = finaladd s.S s.W := rfl
@[simp] theorem finishTransform_rnd : (finishTransform s).rnd = 0 := rfl
@[simp] theorem finishTransform_BUSY : (finishTransform s).BUSY = false := rfl
@[simp] theorem finishTransform_DONE : (finishTransform s).DONE = true := rfl
@[simp] theorem finishTransform_ERR : (finishTransform s).ERR = s.ERR := rfl
@[simp] theorem finishTransform_CAUSE : (finishTransform s).CAUSE = s.CAUSE := rfl
@[simp] theorem finishTransform_responses : (finishTransform s).responses = s.responses := rfl
@[simp] theorem finishTransform_result : (finishTransform s).result = s.result := rfl
@[simp] theorem finishTransform_program : (finishTransform s).program = s.program := rfl
@[simp] theorem finishTransform_turns : (finishTransform s).turns = s.turns := rfl
@[simp] theorem finishTransform_draws : (finishTransform s).draws = s.draws := rfl

/-! ### resetEngine -/

@[simp] theorem resetEngine_S : (resetEngine s).S = drawBlock s.draws := rfl
@[simp] theorem resetEngine_W : (resetEngine s).W = drawBlock (s.draws + 16) := rfl
@[simp] theorem resetEngine_OUT : (resetEngine s).OUT = drawBlock (s.draws + 32) := rfl
@[simp] theorem resetEngine_rnd : (resetEngine s).rnd = 0 := rfl
@[simp] theorem resetEngine_BUSY : (resetEngine s).BUSY = false := rfl
@[simp] theorem resetEngine_DONE : (resetEngine s).DONE = false := rfl
@[simp] theorem resetEngine_ERR : (resetEngine s).ERR = false := rfl
@[simp] theorem resetEngine_CAUSE : (resetEngine s).CAUSE = 0 := rfl
@[simp] theorem resetEngine_responses : (resetEngine s).responses = s.responses := rfl
@[simp] theorem resetEngine_result : (resetEngine s).result = s.result := rfl
@[simp] theorem resetEngine_program : (resetEngine s).program = s.program := rfl
@[simp] theorem resetEngine_turns : (resetEngine s).turns = s.turns := rfl
@[simp] theorem resetEngine_draws : (resetEngine s).draws = s.draws + 48 := rfl

/-! ### popTurn -/

@[simp] theorem popTurn_S : (popTurn s).S = s.S := rfl
@[simp] theorem popTurn_W : (popTurn s).W = s.W := rfl
@[simp] theorem popTurn_OUT : (popTurn s).OUT = s.OUT := rfl
@[simp] theorem popTurn_rnd : (popTurn s).rnd = s.rnd := rfl
@[simp] theorem popTurn_BUSY : (popTurn s).BUSY = s.BUSY := rfl
@[simp] theorem popTurn_DONE : (popTurn s).DONE = s.DONE := rfl
@[simp] theorem popTurn_ERR : (popTurn s).ERR = s.ERR := rfl
@[simp] theorem popTurn_CAUSE : (popTurn s).CAUSE = s.CAUSE := rfl
@[simp] theorem popTurn_responses : (popTurn s).responses = s.responses := rfl
@[simp] theorem popTurn_result : (popTurn s).result = s.result := rfl
@[simp] theorem popTurn_program : (popTurn s).program = s.program := rfl
@[simp] theorem popTurn_turns : (popTurn s).turns = s.turns.tail := rfl
@[simp] theorem popTurn_draws : (popTurn s).draws = s.draws := rfl

/-! ### readStatusReg -/

@[simp] theorem readStatusReg_S : (readStatusReg s).S = s.S := rfl
@[simp] theorem readStatusReg_W : (readStatusReg s).W = s.W := rfl
@[simp] theorem readStatusReg_OUT : (readStatusReg s).OUT = s.OUT := rfl
@[simp] theorem readStatusReg_rnd : (readStatusReg s).rnd = s.rnd := rfl
@[simp] theorem readStatusReg_BUSY : (readStatusReg s).BUSY = s.BUSY := rfl
@[simp] theorem readStatusReg_DONE : (readStatusReg s).DONE = s.DONE := rfl
@[simp] theorem readStatusReg_ERR : (readStatusReg s).ERR = s.ERR := rfl
@[simp] theorem readStatusReg_CAUSE : (readStatusReg s).CAUSE = s.CAUSE := rfl
@[simp] theorem readStatusReg_responses : (readStatusReg s).responses = statusWord s :: s.responses := rfl
@[simp] theorem readStatusReg_result : (readStatusReg s).result = s.result := rfl
@[simp] theorem readStatusReg_program : (readStatusReg s).program = s.program := rfl
@[simp] theorem readStatusReg_turns : (readStatusReg s).turns = s.turns := rfl
@[simp] theorem readStatusReg_draws : (readStatusReg s).draws = s.draws := rfl

/-! ### raiseViolation -/

@[simp] theorem raiseViolation_S (c : Violation) : (raiseViolation c s).S = s.S := by unfold raiseViolation; split <;> rfl
@[simp] theorem raiseViolation_W (c : Violation) : (raiseViolation c s).W = s.W := by unfold raiseViolation; split <;> rfl
@[simp] theorem raiseViolation_OUT (c : Violation) : (raiseViolation c s).OUT = s.OUT := by unfold raiseViolation; split <;> rfl
@[simp] theorem raiseViolation_rnd (c : Violation) : (raiseViolation c s).rnd = s.rnd := by unfold raiseViolation; split <;> rfl
@[simp] theorem raiseViolation_BUSY (c : Violation) : (raiseViolation c s).BUSY = s.BUSY := by unfold raiseViolation; split <;> rfl
@[simp] theorem raiseViolation_DONE (c : Violation) : (raiseViolation c s).DONE = s.DONE := by unfold raiseViolation; split <;> rfl
@[simp] theorem raiseViolation_ERR (c : Violation) : (raiseViolation c s).ERR = true := by unfold raiseViolation; split <;> simp_all
@[simp] theorem raiseViolation_CAUSE (c : Violation) : (raiseViolation c s).CAUSE = bif s.ERR then s.CAUSE else c.code := by unfold raiseViolation; split <;> simp_all
@[simp] theorem raiseViolation_responses (c : Violation) : (raiseViolation c s).responses = s.responses := by unfold raiseViolation; split <;> rfl
@[simp] theorem raiseViolation_result (c : Violation) : (raiseViolation c s).result = s.result := by unfold raiseViolation; split <;> rfl
@[simp] theorem raiseViolation_program (c : Violation) : (raiseViolation c s).program = s.program := by unfold raiseViolation; split <;> rfl
@[simp] theorem raiseViolation_turns (c : Violation) : (raiseViolation c s).turns = s.turns := by unfold raiseViolation; split <;> rfl
@[simp] theorem raiseViolation_draws (c : Violation) : (raiseViolation c s).draws = s.draws := by unfold raiseViolation; split <;> rfl

/-! ### writeStateReg -/

@[simp] theorem writeStateReg_S (i : Fin 16) (v : Word) : (writeStateReg i v s).S = bif s.BUSY then s.S else s.S.set i v := by unfold writeStateReg; split <;> simp_all
@[simp] theorem writeStateReg_W (i : Fin 16) (v : Word) : (writeStateReg i v s).W = s.W := by unfold writeStateReg; split <;> simp
@[simp] theorem writeStateReg_OUT (i : Fin 16) (v : Word) : (writeStateReg i v s).OUT = s.OUT := by unfold writeStateReg; split <;> simp
@[simp] theorem writeStateReg_rnd (i : Fin 16) (v : Word) : (writeStateReg i v s).rnd = s.rnd := by unfold writeStateReg; split <;> simp
@[simp] theorem writeStateReg_BUSY (i : Fin 16) (v : Word) : (writeStateReg i v s).BUSY = s.BUSY := by unfold writeStateReg; split <;> simp
@[simp] theorem writeStateReg_DONE (i : Fin 16) (v : Word) : (writeStateReg i v s).DONE = s.DONE := by unfold writeStateReg; split <;> simp
@[simp] theorem writeStateReg_ERR (i : Fin 16) (v : Word) : (writeStateReg i v s).ERR = (s.BUSY || s.ERR) := by unfold writeStateReg; split <;> simp_all
@[simp] theorem writeStateReg_CAUSE (i : Fin 16) (v : Word) : (writeStateReg i v s).CAUSE = bif s.BUSY then (bif s.ERR then s.CAUSE else 1) else s.CAUSE := by unfold writeStateReg; split <;> simp_all [Violation.code]
@[simp] theorem writeStateReg_responses (i : Fin 16) (v : Word) : (writeStateReg i v s).responses = s.responses := by unfold writeStateReg; split <;> simp
@[simp] theorem writeStateReg_result (i : Fin 16) (v : Word) : (writeStateReg i v s).result = s.result := by unfold writeStateReg; split <;> simp
@[simp] theorem writeStateReg_program (i : Fin 16) (v : Word) : (writeStateReg i v s).program = s.program := by unfold writeStateReg; split <;> simp
@[simp] theorem writeStateReg_turns (i : Fin 16) (v : Word) : (writeStateReg i v s).turns = s.turns := by unfold writeStateReg; split <;> simp
@[simp] theorem writeStateReg_draws (i : Fin 16) (v : Word) : (writeStateReg i v s).draws = s.draws := by unfold writeStateReg; split <;> simp

/-! ### readOutReg -/

@[simp] theorem readOutReg_S (i : Fin 16) : (readOutReg i s).S = s.S := by unfold readOutReg; split <;> simp
@[simp] theorem readOutReg_W (i : Fin 16) : (readOutReg i s).W = s.W := by unfold readOutReg; split <;> simp
@[simp] theorem readOutReg_OUT (i : Fin 16) : (readOutReg i s).OUT = s.OUT := by unfold readOutReg; split <;> simp
@[simp] theorem readOutReg_rnd (i : Fin 16) : (readOutReg i s).rnd = s.rnd := by unfold readOutReg; split <;> simp
@[simp] theorem readOutReg_BUSY (i : Fin 16) : (readOutReg i s).BUSY = s.BUSY := by unfold readOutReg; split <;> simp
@[simp] theorem readOutReg_DONE (i : Fin 16) : (readOutReg i s).DONE = s.DONE := by unfold readOutReg; split <;> simp
@[simp] theorem readOutReg_ERR (i : Fin 16) : (readOutReg i s).ERR = (!s.DONE || s.ERR) := by unfold readOutReg; split <;> simp_all
@[simp] theorem readOutReg_CAUSE (i : Fin 16) : (readOutReg i s).CAUSE = bif s.DONE then s.CAUSE else (bif s.ERR then s.CAUSE else 3) := by unfold readOutReg; cases h : s.DONE <;> cases h2 : s.ERR <;> simp [h2, Violation.code]
@[simp] theorem readOutReg_responses (i : Fin 16) : (readOutReg i s).responses = outGated i s :: s.responses := by unfold readOutReg; split <;> simp_all [outGated]
@[simp] theorem readOutReg_result (i : Fin 16) : (readOutReg i s).result = s.result := by unfold readOutReg; split <;> simp
@[simp] theorem readOutReg_program (i : Fin 16) : (readOutReg i s).program = s.program := by unfold readOutReg; split <;> simp
@[simp] theorem readOutReg_turns (i : Fin 16) : (readOutReg i s).turns = s.turns := by unfold readOutReg; split <;> simp
@[simp] theorem readOutReg_draws (i : Fin 16) : (readOutReg i s).draws = s.draws := by unfold readOutReg; split <;> simp

/-! ### startTransform -/

@[simp] theorem startTransform_S : (startTransform s).S = s.S := by unfold startTransform; split <;> simp [copyState]
@[simp] theorem startTransform_W : (startTransform s).W = bif s.BUSY then s.W else s.S := by unfold startTransform; split <;> simp_all [copyState]
@[simp] theorem startTransform_OUT : (startTransform s).OUT = s.OUT := by unfold startTransform; split <;> simp [copyState]
@[simp] theorem startTransform_rnd : (startTransform s).rnd = bif s.BUSY then s.rnd else 0 := by unfold startTransform; split <;> simp_all
@[simp] theorem startTransform_BUSY : (startTransform s).BUSY = true := by unfold startTransform; split <;> simp_all
@[simp] theorem startTransform_DONE : (startTransform s).DONE = (s.BUSY && s.DONE) := by unfold startTransform; split <;> simp_all
@[simp] theorem startTransform_ERR : (startTransform s).ERR = (s.BUSY || s.ERR) := by unfold startTransform; split <;> simp_all [copyState]
@[simp] theorem startTransform_CAUSE : (startTransform s).CAUSE = bif s.BUSY then (bif s.ERR then s.CAUSE else 2) else s.CAUSE := by unfold startTransform; split <;> simp_all [Violation.code, copyState]
@[simp] theorem startTransform_responses : (startTransform s).responses = s.responses := by unfold startTransform; split <;> simp [copyState]
@[simp] theorem startTransform_result : (startTransform s).result = s.result := by unfold startTransform; split <;> simp [copyState]
@[simp] theorem startTransform_program : (startTransform s).program = s.program := by unfold startTransform; split <;> simp [copyState]
@[simp] theorem startTransform_turns : (startTransform s).turns = s.turns := by unfold startTransform; split <;> simp [copyState]
@[simp] theorem startTransform_draws : (startTransform s).draws = s.draws := by unfold startTransform; split <;> simp [copyState]

end Sys2Proof.Machine
end

