-- ==== Sys2Proof/Laws/Ops.lean ====
section
/-! SUPPORT. For each shared operation, once, everything it can do. -/

namespace Sys2Proof.Machine

/-- Recording a violation: the first cause is kept (00_scope R10). -/
theorem raiseViolation_cases (c : Violation) (s : State) :
    (s.ERR = true ∧ raiseViolation c s = s) ∨
    (s.ERR = false ∧ raiseViolation c s = { s with ERR := true, CAUSE := c.code }) := by
  unfold raiseViolation
  cases h : s.ERR <;> simp

/-- A code is never 0 and at most 5 (60_exceptions R222). -/
theorem Violation.code_range (c : Violation) : c.code ≠ 0 ∧ c.code.toNat ≤ 5 := by cases c <;> decide

/-- A write to STATE[i] stores or is dropped with violation 1 (45_host_commands R190). -/
theorem writeStateReg_cases (i : Fin 16) (v : Word) (s : State) :
    (s.BUSY = false ∧ writeStateReg i v s = { s with S := s.S.set i v }) ∨
    (s.BUSY = true ∧ writeStateReg i v s = raiseViolation .wrStateBusy s) := by
  unfold writeStateReg
  cases h : s.BUSY <;> simp

/-- A read of OUT[i] returns the result or 0 with violation 3 (45_host_commands R192). -/
theorem readOutReg_cases (i : Fin 16) (s : State) :
    (s.DONE = true ∧ readOutReg i s = respond s.OUT[i] s) ∨
    (s.DONE = false ∧ readOutReg i s = raiseViolation .rdOutNotDone (respond 0 s)) := by
  unfold readOutReg
  cases h : s.DONE <;> simp

/-- A START is accepted or is violation 2 (45_host_commands R193). -/
theorem startTransform_cases (s : State) :
    (s.BUSY = false ∧ startTransform s = { s with W := s.S, rnd := 0, BUSY := true, DONE := false }) ∨
    (s.BUSY = true ∧ startTransform s = raiseViolation .startBusy s) := by
  unfold startTransform
  cases h : s.BUSY <;> simp [copyState]

/-- Bit 1 of the STATUS word is DONE (10_state R30). -/
@[simp] theorem statusWord_done (s : State) : (statusWord s).getLsbD 1 = s.DONE := by
  have key : ∀ (c : BitVec 3) (e d b : Bool),
      ((c ++ 0#1 ++ BitVec.ofBool e ++ BitVec.ofBool d ++ BitVec.ofBool b).zeroExtend 32).getLsbD 1 = d := by decide
  exact key s.CAUSE s.ERR s.DONE s.BUSY

/-- The STATUS word as a number (45_host_commands R196). -/
theorem statusWord_toNat (s : State) :
    (statusWord s).toNat = s.BUSY.toNat + 2 * s.DONE.toNat + 4 * s.ERR.toNat + 16 * s.CAUSE.toNat := by
  have key : ∀ (c : BitVec 3) (e d b : Bool),
      ((c ++ 0#1 ++ BitVec.ofBool e ++ BitVec.ofBool d ++ BitVec.ofBool b).zeroExtend 32).toNat =
        b.toNat + 2 * d.toNat + 4 * e.toNat + 16 * c.toNat := by decide
  exact key s.CAUSE s.ERR s.DONE s.BUSY

end Sys2Proof.Machine
end

