-- ==== Sys2Proof/Laws/Exec.lean ====
section
/-! SUPPORT. One equation per operation: what `exec` answers, in terms of the shared updates. -/

namespace Sys2Proof.Machine

variable (s : State)

@[simp] theorem exec_rdState (i : Fin 16) : exec (.rdState i) s = .next (respond s.S[i] s) := rfl
@[simp] theorem exec_wrState (i : Fin 16) (v : Word) : exec (.wrState i v) s = .next (writeStateReg i v s) := rfl
@[simp] theorem exec_rdOut (i : Fin 16) : exec (.rdOut i) s = .next (readOutReg i s) := rfl
@[simp] theorem exec_wrOut (i : Fin 16) (v : Word) : exec (.wrOut i v) s = .next (raiseViolation .wrReadOnly s) := rfl
@[simp] theorem exec_rdCtrl : exec .rdCtrl s = .next (respond 0 s) := rfl
@[simp] theorem exec_start : exec .start s = .next (startTransform s) := rfl
@[simp] theorem exec_wrCtrlNop : exec .wrCtrlNop s = .next s := rfl
@[simp] theorem exec_rdStatus : exec .rdStatus s = .next (readStatusReg s) := rfl
@[simp] theorem exec_wrStatus (v : Word) : exec (.wrStatus v) s = .next (raiseViolation .wrReadOnly s) := rfl
@[simp] theorem exec_rdRsvd (a : BitVec 6) :
    exec (.rdRsvd a) s = .next (raiseViolation .reservedAddr (respond 0 s)) := rfl
@[simp] theorem exec_wrRsvd (a : BitVec 6) (v : Word) :
    exec (.wrRsvd a v) s = .next (raiseViolation .reservedAddr s) := rfl
@[simp] theorem exec_colround (k : BitVec 5) :
    exec (.colround k) s = .next (if entrySelected k s then applyRound colround s else s) := rfl
@[simp] theorem exec_diaground (k : BitVec 5) :
    exec (.diaground k) s = .next (if entrySelected k s then applyRound diaground s else s) := rfl
@[simp] theorem exec_finaladd : exec .finaladd s = .next (if entrySelected 20 s then finishTransform s else s) := rfl
@[simp] theorem exec_seqRsvd (k : BitVec 5) : exec (.seqRsvd k) s = .fault .engineStuck := rfl
@[simp] theorem exec_eRound :
    exec .eRound s = .next (if s.BUSY && decide (s.rnd.toNat < 20) then
      (if s.rnd.getLsbD 0 then applyRound diaground s else applyRound colround s) else s) := rfl
@[simp] theorem exec_eFinal :
    exec .eFinal s = .next (if s.BUSY && decide (s.rnd.toNat = 20) then finishTransform s else s) := rfl
@[simp] theorem exec_reset : exec .reset s = .next (resetEngine s) := rfl
@[simp] theorem exec_add32 (x y : Word) : exec (.add32 x y) s = .next (deliver [add32 x y] s) := rfl
@[simp] theorem exec_xor32 (x y : Word) : exec (.xor32 x y) s = .next (deliver [xor32 x y] s) := rfl
@[simp] theorem exec_rotl32 (v : Word) (n : Nat) :
    exec (.rotl32 v n) s = if 0 < n ∧ n < 32 then .next (deliver [rotl32 v n] s) else .refused .rotateAmount := rfl
@[simp] theorem exec_qr (a b c d : Word) :
    exec (.qr a b c d) s = .next (deliver [(qr a b c d).a, (qr a b c d).b, (qr a b c d).c, (qr a b c d).d] s) := rfl
@[simp] theorem exec_round (k : Fin 20) (x : Block) :
    exec (.round k x) s = .next (deliver (roundFn k.val x).toList s) := rfl
@[simp] theorem exec_doubleround (x : Block) :
    exec (.doubleround x) s = .next (deliver (doubleround x).toList s) := rfl
@[simp] theorem exec_rounds (x : Block) (n : Fin 21) :
    exec (.rounds x n) s = .next (deliver (roundsFn x n.val).toList s) := rfl
@[simp] theorem exec_copy : exec .copy s = .next (copyState s) := rfl
@[simp] theorem exec_block (x : Block) : exec (.block x) s = .next (deliver (blockFn x).toList s) := rfl
@[simp] theorem exec_bswap32 (w : Word) : exec (.bswap32 w) s = .next (deliver [bswap32 w] s) := rfl
@[simp] theorem exec_loadstate (ws : Block) :
    exec (.loadstate ws) s = .next (writeStateReg 0 ws[(0 : Fin 16)] (issue (loadstateRest ws) s)) := rfl
@[simp] theorem exec_poll :
    exec .poll s = .next (if s.DONE then readStatusReg s else readStatusReg (issue [.poll] s)) := by
  simp only [exec, execPoll, statusWord_done]
@[simp] theorem exec_readout : exec .readout s = .next (readOutReg 0 (issue readoutRest s)) := rfl
@[simp] theorem exec_runblock : exec .runblock s = .next (startTransform (issue [.poll, .readout] s)) := rfl
@[simp] theorem exec_setctr (c : Word) : exec (.setctr c) s = .next (writeStateReg 12 c s) := rfl

variable {s}

/-- No operation touches the interleaving still to come: it is the step that takes turns off. -/
theorem exec_turns {i : Instr} {t : State} (h : exec i s = .next t) : t.turns = s.turns := by
  cases i <;> simp only [exec_rdState, exec_wrState, exec_rdOut, exec_wrOut, exec_rdCtrl, exec_start, exec_wrCtrlNop, exec_rdStatus, exec_wrStatus,
    exec_rdRsvd, exec_wrRsvd, exec_colround, exec_diaground, exec_finaladd, exec_seqRsvd, exec_eRound, exec_eFinal, exec_reset,
    exec_add32, exec_xor32, exec_rotl32, exec_qr, exec_round, exec_doubleround, exec_rounds, exec_copy, exec_block,
    exec_bswap32, exec_loadstate, exec_poll, exec_readout, exec_runblock, exec_setctr, Host.Outcome.next.injEq, reduceCtorEq] at h
  all_goals (try split at h)
  all_goals cases h
  all_goals (try simp)
  all_goals split <;> simp

/-- Only START, alone or as the first command of RUNBLOCK, sets BUSY. -/
theorem exec_sets_busy {i : Instr} {t : State} (h : exec i s = .next t) (hs : s.BUSY = false) (ht : t.BUSY = true) :
    i = .start ∨ i = .runblock := by
  cases i <;> simp only [exec_rdState, exec_wrState, exec_rdOut, exec_wrOut, exec_rdCtrl, exec_start, exec_wrCtrlNop, exec_rdStatus, exec_wrStatus,
    exec_rdRsvd, exec_wrRsvd, exec_colround, exec_diaground, exec_finaladd, exec_seqRsvd, exec_eRound, exec_eFinal, exec_reset,
    exec_add32, exec_xor32, exec_rotl32, exec_qr, exec_round, exec_doubleround, exec_rounds, exec_copy, exec_block,
    exec_bswap32, exec_loadstate, exec_poll, exec_readout, exec_runblock, exec_setctr, Host.Outcome.next.injEq, reduceCtorEq] at h ⊢
  all_goals (try split at h)
  all_goals cases h
  all_goals revert ht
  all_goals (try split)
  all_goals simp_all [entrySelected, resetEngine]

end Sys2Proof.Machine
end

