-- ==== Sys2Proof/Laws/PerInstr.lean ====
section
/-! SUPPORT. Per-instruction family RoundTrip: what encode writes, decode reads back. -/

namespace Sys2Proof.Laws.RoundTrip

/-- Decoding the word of a well-formed instruction gives the instruction. -/
def Statement (i : Instr) : Prop := i.wf = true → ∀ e, encode i = some e → decode e = i

theorem rdState (i : Fin 16) : Statement (.rdState i) := by
  rintro - e ⟨⟩; exact decodeBus_state false i 0
theorem wrState (i : Fin 16) (v : Word) : Statement (.wrState i v) := by
  rintro - e ⟨⟩; exact decodeBus_state true i v
theorem rdOut (i : Fin 16) : Statement (.rdOut i) := by
  rintro - e ⟨⟩; exact decodeBus_out false i 0
theorem wrOut (i : Fin 16) (v : Word) : Statement (.wrOut i v) := by
  rintro - e ⟨⟩; exact decodeBus_out true i v
theorem rdCtrl : Statement .rdCtrl := by
  rintro - e ⟨⟩; exact decodeBus_ctrl false 0
theorem start : Statement .start := by
  rintro - e ⟨⟩; exact decodeBus_ctrl true 1
theorem wrCtrlNop : Statement .wrCtrlNop := by
  rintro - e ⟨⟩; exact decodeBus_ctrl true 0
theorem rdStatus : Statement .rdStatus := by
  rintro - e ⟨⟩; exact decodeBus_status false 0
theorem wrStatus (v : Word) : Statement (.wrStatus v) := by
  rintro - e ⟨⟩; exact decodeBus_status true v
theorem rdRsvd (a : BitVec 6) : Statement (.rdRsvd a) := by
  rintro h e ⟨⟩; exact decodeBus_reserved false a 0 (of_decide_eq_true h)
theorem wrRsvd (a : BitVec 6) (v : Word) : Statement (.wrRsvd a v) := by
  rintro h e ⟨⟩; exact decodeBus_reserved true a v (of_decide_eq_true h)
theorem colround (k : BitVec 5) : Statement (.colround k) := by
  rintro h e ⟨⟩; simp only [Instr.wf, Bool.and_eq_true, decide_eq_true_eq, Bool.not_eq_true'] at h
  simp only [decode, decodeSeq, h.1, h.2, if_true, Bool.false_eq_true, if_false]
theorem diaground (k : BitVec 5) : Statement (.diaground k) := by
  rintro h e ⟨⟩; simp only [Instr.wf, Bool.and_eq_true, decide_eq_true_eq] at h
  simp only [decode, decodeSeq, h.1, h.2, if_true]
theorem finaladd : Statement .finaladd := by
  rintro - e ⟨⟩; rfl
theorem seqRsvd (k : BitVec 5) : Statement (.seqRsvd k) := by
  rintro h e ⟨⟩
  have h21 : 21 ≤ k.toNat := of_decide_eq_true h
  simp [decode, decodeSeq, show ¬k.toNat < 20 by omega, show ¬k.toNat = 20 by omega]
theorem eRound : Statement .eRound := by rintro - e ⟨⟩
theorem eFinal : Statement .eFinal := by rintro - e ⟨⟩
theorem reset : Statement .reset := by rintro - e ⟨⟩
theorem add32 (x y : Word) : Statement (.add32 x y) := by rintro - e ⟨⟩
theorem xor32 (x y : Word) : Statement (.xor32 x y) := by rintro - e ⟨⟩
theorem rotl32 (v : Word) (n : Nat) : Statement (.rotl32 v n) := by rintro - e ⟨⟩
theorem qr (a b c d : Word) : Statement (.qr a b c d) := by rintro - e ⟨⟩
theorem round (k : Fin 20) (x : Block) : Statement (.round k x) := by rintro - e ⟨⟩
theorem doubleround (x : Block) : Statement (.doubleround x) := by rintro - e ⟨⟩
theorem rounds (x : Block) (n : Fin 21) : Statement (.rounds x n) := by rintro - e ⟨⟩
theorem copy : Statement .copy := by rintro - e ⟨⟩
theorem block (x : Block) : Statement (.block x) := by rintro - e ⟨⟩
theorem bswap32 (w : Word) : Statement (.bswap32 w) := by rintro - e ⟨⟩
theorem loadstate (ws : Block) : Statement (.loadstate ws) := by rintro - e ⟨⟩
theorem poll : Statement .poll := by rintro - e ⟨⟩
theorem readout : Statement .readout := by rintro - e ⟨⟩
theorem runblock : Statement .runblock := by rintro - e ⟨⟩
theorem setctr (c : Word) : Statement (.setctr c) := by rintro - e ⟨⟩

end Sys2Proof.Laws.RoundTrip
end

