-- ==== Sys2Proof/Laws/Step.lean ====
section
/-! SUPPORT. Once, what a step can do: whose turn it is and what that agent runs. -/

namespace Sys2Proof.Machine

/-- A laid-down turn is the one taken. -/
theorem step_of_turn (s : State) (u : Turn) (us : List Turn) (h : s.turns = u :: us) :
    step s = takeTurn u { s with turns := us } := by
  simp [step, nextTurn, popTurn, h]

/-- With no turn laid down the ENGINE goes on while a transform runs, else the HOST. -/
theorem step_of_no_turn (s : State) (h : s.turns = []) :
    step s = takeTurn (if s.BUSY then .engine else .host) s := by
  have hp : popTurn s = s := by cases s; simp_all [popTurn]
  simp [step, nextTurn, hp, h]

/-- The ENGINE's step while it runs: a round below index 20, the final addition at 20, stuck above. -/
theorem engineTurn_cases (s : State) (h : s.BUSY = true) :
    (s.rnd.toNat < 20 ∧ engineTurn s = .next (applyRound (roundFn s.rnd.toNat) s)) ∨
    (s.rnd.toNat = 20 ∧ engineTurn s = .next (finishTransform s)) ∨
    (20 < s.rnd.toNat ∧ engineTurn s = .fault .engineStuck) := by
  have key : ∀ k : BitVec 5,
      (k.toNat < 20 ∧ k.toNat % 2 = 0 ∧ decodeSeq k = .colround k) ∨
      (k.toNat < 20 ∧ k.toNat % 2 = 1 ∧ decodeSeq k = .diaground k) ∨
      (k.toNat = 20 ∧ k = 20 ∧ decodeSeq k = .finaladd) ∨ (20 < k.toNat ∧ decodeSeq k = .seqRsvd k) := by decide
  have sel : entrySelected s.rnd s = true := by simp [entrySelected, h]
  rw [engineTurn, if_pos h]
  rcases key s.rnd with ⟨h1, h2, h3⟩ | ⟨h1, h2, h3⟩ | ⟨h1, h2, h3⟩ | ⟨h1, h3⟩ <;> rw [h3]
  · refine .inl ⟨h1, ?_⟩
    rw [exec, execColround, if_pos sel]
    simp [applyRound, roundFn, h2]
  · refine .inl ⟨h1, ?_⟩
    rw [exec, execDiaground, if_pos sel]
    simp [applyRound, roundFn, h2]
  · refine .inr (.inl ⟨h1, ?_⟩)
    rw [h2] at sel
    rw [exec, execFinaladd, if_pos sel]
  · exact .inr (.inr ⟨h1, by rw [exec, execSeqRsvd]⟩)

/-- What a host operation can do to the violation record: nothing, or record one of the five causes. -/
def recordStep (s t : State) : Prop :=
  keepsRecord s t ∨ ∃ c : Violation, t.ERR = true ∧ t.CAUSE = bif s.ERR then s.CAUSE else c.code

/-- What a host operation can do to the engine: nothing but to the record, store one word of S while `BUSY = 0`, or start a
transform while `BUSY = 0`. -/
def hostEffect (s t : State) : Prop :=
  (keepsData s t ∧ keepsSequencer s t ∧ recordStep s t) ∨
  (s.BUSY = false ∧ (∃ i v, t.S = s.S.set (i : Fin 16) v) ∧ t.W = s.W ∧ t.OUT = s.OUT ∧ keepsSequencer s t ∧ keepsRecord s t) ∨
  (s.BUSY = false ∧ t.S = s.S ∧ t.W = s.S ∧ t.OUT = s.OUT ∧ t.rnd = 0 ∧ t.BUSY = true ∧ t.DONE = false ∧ keepsRecord s t)

theorem hostEffect_quiet {s t : State} (hd : keepsData s t) (hs : keepsSequencer s t) (hr : recordStep s t) : hostEffect s t :=
  .inl ⟨hd, hs, hr⟩

theorem recordStep_raise (c : Violation) (s : State) : recordStep s (raiseViolation c s) :=
  .inr ⟨c, by simp⟩

theorem hostEffect_write (i : Fin 16) (v : Word) (ops : List HostOp) (s : State) :
    hostEffect s (writeStateReg i v (issue ops s)) := by
  rcases writeStateReg_cases i v (issue ops s) with ⟨h, e⟩ | ⟨h, e⟩ <;> rw [e]
  · exact .inr (.inl ⟨h, ⟨i, v, rfl⟩, rfl, rfl, ⟨rfl, rfl, rfl⟩, rfl, rfl⟩)
  · exact hostEffect_quiet (by simp [keepsData]) (by simp [keepsSequencer]) (.inr ⟨.wrStateBusy, by simp⟩)

theorem hostEffect_start (ops : List HostOp) (s : State) : hostEffect s (startTransform (issue ops s)) := by
  rcases startTransform_cases (issue ops s) with ⟨h, e⟩ | ⟨h, e⟩ <;> rw [e]
  · exact .inr (.inr ⟨h, rfl, rfl, rfl, rfl, rfl, rfl, rfl, rfl⟩)
  · exact hostEffect_quiet (by simp [keepsData]) (by simp [keepsSequencer]) (.inr ⟨.startBusy, by simp⟩)

theorem hostEffect_readOut (i : Fin 16) (ops : List HostOp) (s : State) :
    hostEffect s (readOutReg i (issue ops s)) := by
  rcases readOutReg_cases i (issue ops s) with ⟨h, e⟩ | ⟨h, e⟩ <;> rw [e]
  · exact hostEffect_quiet (by simp [keepsData]) (by simp [keepsSequencer]) (.inl (by simp [keepsRecord]))
  · exact hostEffect_quiet (by simp [keepsData]) (by simp [keepsSequencer]) (.inr ⟨.rdOutNotDone, by simp⟩)

theorem issue_nil (s : State) : issue [] s = s := rfl

/-- Every command word runs, in every state, with one of the effects of a host operation. -/
theorem exec_decodeBus (w : BitVec 39) (s : State) : ∃ t, exec (decodeBus w) s = .next t ∧ hostEffect s t := by
  rw [← busWord_fields w]
  generalize busWe w = we, busAddr w = a, busWdata w = v
  have quiet : ∀ x : Word, hostEffect s (respond x s) := fun x =>
    hostEffect_quiet (by simp [keepsData]) (by simp [keepsSequencer]) (.inl (by simp [keepsRecord]))
  have raises : ∀ c, hostEffect s (raiseViolation c s) := fun c =>
    hostEffect_quiet (by simp [keepsData]) (by simp [keepsSequencer]) (recordStep_raise c s)
  rcases addr_cases a with ⟨i, rfl⟩ | ⟨i, rfl⟩ | rfl | rfl | h
  · rw [decodeBus_state]
    cases we
    · exact ⟨_, rfl, quiet _⟩
    · exact ⟨_, rfl, hostEffect_write i v [] s⟩
  · rw [decodeBus_out]
    cases we
    · exact ⟨_, rfl, hostEffect_readOut i [] s⟩
    · exact ⟨_, rfl, raises _⟩
  · rw [decodeBus_ctrl]
    cases we
    · exact ⟨_, rfl, quiet _⟩
    · cases v.getLsbD 0
      · exact ⟨_, rfl, hostEffect_quiet ⟨rfl, rfl, rfl⟩ ⟨rfl, rfl, rfl⟩ (.inl ⟨rfl, rfl⟩)⟩
      · exact ⟨_, rfl, hostEffect_start [] s⟩
  · rw [decodeBus_status]
    cases we
    · exact ⟨_, rfl, quiet _⟩
    · exact ⟨_, rfl, raises _⟩
  · rw [decodeBus_reserved _ _ _ h]
    cases we
    · exact ⟨_, rfl, hostEffect_quiet (by simp [keepsData]) (by simp [keepsSequencer]) (.inr ⟨.reservedAddr, by simp⟩)⟩
    · exact ⟨_, rfl, raises _⟩

/-- Every operation of a host program runs, in every state, with one of the effects of a host operation. -/
theorem exec_hostOp (op : HostOp) (s : State) : ∃ t, exec op.instr s = .next t ∧ hostEffect s t := by
  cases op with
  | command w => exact exec_decodeBus w s
  | loadstate ws => exact ⟨_, rfl, hostEffect_write 0 _ _ s⟩
  | poll =>
    refine ⟨_, exec_poll s, ?_⟩
    cases s.DONE <;>
      exact hostEffect_quiet (by simp [keepsData]) (by simp [keepsSequencer]) (.inl (by simp [keepsRecord]))
  | readout => exact ⟨_, rfl, hostEffect_readOut 0 _ s⟩
  | runblock => exact ⟨_, rfl, hostEffect_start _ s⟩
  | setctr c => exact ⟨_, rfl, hostEffect_write 12 c [] s⟩
  | bswap32 w => exact ⟨_, rfl, hostEffect_quiet ⟨rfl, rfl, rfl⟩ ⟨rfl, rfl, rfl⟩ (.inl ⟨rfl, rfl⟩)⟩

/-- Once, everything a step can do. -/
theorem step_cases (s : State) :
    (step s = .next (popTurn s)) ∨
    (nextTurn s = .host ∧ ∃ op rest t, s.program = op :: rest ∧ step s = .next t ∧
      exec op.instr { popTurn s with program := rest } = .next t ∧ hostEffect s t) ∨
    (nextTurn s = .engine ∧ s.BUSY = true ∧ s.rnd.toNat < 20 ∧
      step s = .next (applyRound (roundFn s.rnd.toNat) (popTurn s))) ∨
    (nextTurn s = .engine ∧ s.BUSY = true ∧ s.rnd.toNat = 20 ∧ step s = .next (finishTransform (popTurn s))) ∨
    (nextTurn s = .engine ∧ s.BUSY = true ∧ 20 < s.rnd.toNat ∧ step s = .fault .engineStuck) ∨
    (nextTurn s = .reset ∧ step s = .next (resetEngine (popTurn s))) := by
  cases hu : nextTurn s with
  | host =>
    cases hp : s.program with
    | nil => left; simp [step, hu, takeTurn, hostTurn, hp]
    | cons op rest =>
      right; left
      obtain ⟨t, ht, he⟩ := exec_hostOp op { popTurn s with program := rest }
      exact ⟨rfl, op, rest, t, rfl, by simp only [step, hu, takeTurn, hostTurn, popTurn_program, hp]; exact ht, ht, he⟩
  | engine =>
    cases hb : s.BUSY with
    | false => left; simp [step, hu, takeTurn, engineTurn, hb]
    | true =>
      have hstep : step s = engineTurn (popTurn s) := by simp [step, hu, takeTurn]
      rw [hstep]
      rcases engineTurn_cases (popTurn s) hb with ⟨h, e⟩ | ⟨h, e⟩ | ⟨h, e⟩
      · exact .inr (.inr (.inl ⟨rfl, rfl, h, e⟩))
      · exact .inr (.inr (.inr (.inl ⟨rfl, rfl, h, e⟩)))
      · exact .inr (.inr (.inr (.inr (.inl ⟨rfl, rfl, h, e⟩))))
  | reset =>
    exact .inr (.inr (.inr (.inr (.inr ⟨rfl, by simp [step, hu, takeTurn]⟩))))

/-- `runFor` splits at any point. -/
theorem runFor_add (m n : Nat) (s t : State) (h : runFor m s = .next t) : runFor (m + n) s = runFor n t := by
  induction m generalizing s with
  | zero =>
    cases h
    simp
  | succ m ih =>
    rw [Nat.succ_add]
    simp only [runFor] at h ⊢
    cases hs : step s with
    | next u => rw [hs] at h; exact ih u h
    | fault r => rw [hs] at h; cases h
    | refused r => rw [hs] at h; cases h

end Sys2Proof.Machine
end

