-- ==== Sys2Proof/Tests/Slice0.lean ====
section
/-! SUPPORT. Tests: expected values are those the spec prints (95_test_vectors, 30_encoding, 45_host_commands), named beside each.
Then one witness for the hypotheses of every obligation that has some. -/

namespace Sys2Proof.Tests

open Sys2Proof.Machine

/-! ### Helpers -/

/-- The next state, if there is one. -/
def after (o : Host.Outcome State Fault Refusal) : Option State :=
  match o with
  | .next t => some t
  | .fault _ => none
  | .refused _ => none

/-- `S` of V-BLK1. -/
def blkS : Block :=
  #v[0x61707865, 0x3320646e, 0x79622d32, 0x6b206574, 0x03020100, 0x07060504, 0x0b0a0908, 0x0f0e0d0c,
     0x13121110, 0x17161514, 0x1b1a1918, 0x1f1e1d1c, 0x00000001, 0x09000000, 0x4a000000, 0x00000000]

/-- `OUT` of V-BLK1 (the values program P1 reads). -/
def blkOut : Block :=
  #v[0xe4e7f110, 0x15593bd1, 0x1fdd0f50, 0xc47120a3, 0xc7f4d1c7, 0x0368c033, 0x9aaa2204, 0x4e6cd4c3,
     0x466482d2, 0x09aa9f07, 0x05d7c214, 0xa2028bd9, 0xd19c12b5, 0xb94e16de, 0xe883d0cb, 0x4e3c50a2]

/-- `W` of V-BLK1 after round 20. -/
def blkW : Block :=
  #v[0x837778ab, 0xe238d763, 0xa67ae21e, 0x5950bb2f, 0xc4f2d0c7, 0xfc62bb2f, 0x8fa018fc, 0x3f5ec7b7,
     0x335271c2, 0xf29489f3, 0xeabda8fc, 0x82e46ebd, 0xd19c12b4, 0xb04e16de, 0x9e83d0cb, 0x4e3c50a2]

/-- The input of V-RND1 to V-RND3: `X[i] = i`. -/
def ramp : Block := #v[0, 1, 2, 3, 4, 5, 6, 7, 8, 9, 10, 11, 12, 13, 14, 15]

/-- A small state: `S` of V-BLK1, `W` a ramp, `OUT` of V-BLK1, nothing recorded. -/
def st (busy done : Bool) (rnd : BitVec 5) : State :=
  { State.reset with S := blkS, W := ramp, OUT := blkOut, BUSY := busy, DONE := done, rnd := rnd }

def idle : State := st false false 0
def running : State := st true false 7
def finished : State := st false true 0

/-- A state with a violation already recorded. -/
def marked (s : State) : State := { s with ERR := true, CAUSE := 3 }

/-! ### WellFormed refuses an ill-formed term at each check -/

theorem test_wf_rdRsvd : (Instr.rdRsvd 0x21).wf = false ∧ (Instr.rdRsvd 0x22).wf = true := by decide
theorem test_wf_wrRsvd : (Instr.wrRsvd 0x21 0).wf = false ∧ (Instr.wrRsvd 0x3F 0).wf = true := by decide
theorem test_wf_colround :
    (Instr.colround 1).wf = false ∧ (Instr.colround 20).wf = false ∧ (Instr.colround 18).wf = true := by decide
theorem test_wf_diaground :
    (Instr.diaground 0).wf = false ∧ (Instr.diaground 21).wf = false ∧ (Instr.diaground 19).wf = true := by decide
theorem test_wf_seqRsvd : (Instr.seqRsvd 20).wf = false ∧ (Instr.seqRsvd 21).wf = true := by decide
theorem test_wf_rotl32 :
    (Instr.rotl32 1 0).wf = false ∧ (Instr.rotl32 1 32).wf = false ∧ (Instr.rotl32 1 31).wf = true := by decide

/-! ### Decoding: words of 95_test_vectors section 2.9 and section 3, and written out from 30_encoding R83, R90 -/

theorem test_decode_wrState :
    decodeBus 0x4061707865 = .wrState 0 0x61707865 ∧ decodeBus 0x4F00000000 = .wrState 15 0 := by decide
theorem test_decode_rdState : decodeBus 0x0C00000000 = .rdState 12 ∧ decodeBus 0x00FFFFFFFF = .rdState 0 := by decide
theorem test_decode_rdOut : decodeBus 0x1000000000 = .rdOut 0 ∧ decodeBus 0x1F00000000 = .rdOut 15 := by decide
theorem test_decode_wrOut : decodeBus 0x5012345678 = .wrOut 0 0x12345678 := by decide
theorem test_decode_start : decodeBus 0x6000000001 = .start ∧ decodeBus 0x60FFFFFFFF = .start := by decide
theorem test_decode_wrCtrlNop : decodeBus 0x60FFFFFFFE = .wrCtrlNop ∧ decodeBus 0x6000000000 = .wrCtrlNop := by decide
theorem test_decode_rdCtrl : decodeBus 0x2000000000 = .rdCtrl := by decide
theorem test_decode_rdStatus : decodeBus 0x2100000000 = .rdStatus := by decide
theorem test_decode_wrStatus : decodeBus 0x6100000000 = .wrStatus 0 := by decide
theorem test_decode_rdRsvd : decodeBus 0x2200000000 = .rdRsvd 0x22 ∧ decodeBus 0x3F00000000 = .rdRsvd 0x3F := by decide
theorem test_decode_wrRsvd : decodeBus 0x7FFFFFFFFF = .wrRsvd 0x3F 0xFFFFFFFF := by decide
/-- The same bit by bit: `we = 1`, `addr = 000100`, `wdata = 0x03020100` is `WR STATE[4], 0x03020100`. -/
theorem test_decode_bits :
    decodeBus (0b1#1 ++ 0b000100#6 ++ 0b00000011000000100000000100000000#32) = .wrState 4 0x03020100 := by decide
theorem test_decode_colround : decodeSeq 0b00000 = .colround 0 ∧ decodeSeq 0b10010 = .colround 18 := by decide
theorem test_decode_diaground : decodeSeq 0b00001 = .diaground 1 ∧ decodeSeq 0b10011 = .diaground 19 := by decide
theorem test_decode_finaladd : decodeSeq 0b10100 = .finaladd := by decide
theorem test_decode_seqRsvd : decodeSeq 0b10101 = .seqRsvd 21 ∧ decodeSeq 0b11111 = .seqRsvd 31 := by decide
theorem test_decode_rejects_top_bit :
    (decodeBits 40 0x8000000000).toOption = none ∧ (decodeBits 8 32).toOption = none := by decide
theorem test_decode_rejects_length : decodeTableWord 16 0 = none ∧ decodeTableWord 64 0 = none := by decide
theorem test_decode_table_word :
    decodeTableWord 40 0x4061707865 = some (.wrState 0 0x61707865) ∧ decodeTableWord 8 20 = some .finaladd := by decide

/-- The encoder emits canonical words (30_encoding R84). -/
theorem test_encode_canonical :
    encode .start = some (.bus 0x6000000001) ∧ encode .wrCtrlNop = some (.bus 0x6000000000) ∧
    encode (.rdState 12) = some (.bus 0x0C00000000) ∧ encode (.wrRsvd 0x3F 0xFFFFFFFF) = some (.bus 0x7FFFFFFFFF) := by decide

/-- Every mnemonic is told apart by its rows: the raw form of the assembler reaches a defined register (30_encoding R95). -/
theorem test_assemble : assemble (.wrRaw 0x04 0x03020100) = 0x4403020100 ∧ assemble (.rdRaw 0x22) = 0x2200000000 := by decide

/-! ### Functions: 95_test_vectors sections 2.1 to 2.8 -/

theorem test_add32 : add32 0xFFFFFFFF 1 = 0 ∧ add32 0x61707865 0x837778AB = 0xE4E7F110 := by decide
theorem test_xor32 : xor32 0x01234567 0x12131415 = 0x13305172 := by decide
theorem test_rotl32 : rotl32 0x12345678 7 = 0x1A2B3C09 ∧ rotl32 0x12345678 31 = 0x091A2B3C ∧ rotl32 0x80000000 1 = 1 := by decide
theorem test_rotl32_outside : exec (.rotl32 1 0) idle = .refused .rotateAmount := rfl
/-- V-QR1. -/
theorem test_qr : (after (exec (.qr 0x11111111 0x01020304 0x9B8D6F43 0x01234567) idle)).map (·.result) =
    some [0xEA2A92F4, 0xCB1CF8CE, 0x4581472E, 0x5881C4BB] := by decide
/-- V-QR4: every addition wraps. -/
theorem test_qr_wraps : qr 0xFFFFFFFF 0xFFFFFFFF 0xFFFFFFFF 0xFFFFFFFF =
    ⟨0xF0000FFD, 0x88790878, 0x0110FDEF, 0x010FFDF0⟩ := by decide
/-- V-QR2: diagonal lane 2 on a 16-word state; the words outside the lane stay. -/
theorem test_lane :
    mixLane true #v[0x879531e0, 0xc5ecf37d, 0x516461b1, 0xc9a62f8a, 0x44c20ef3, 0x3390af7f, 0xd9fc690b, 0x2a5f714c,
      0x53372767, 0xb00a5631, 0x974c541a, 0x359e9963, 0x5c971061, 0x3d631689, 0x2098d9d6, 0x91dbd320] 2 =
    #v[0x879531e0, 0xc5ecf37d, 0xbdb886dc, 0xc9a62f8a, 0x44c20ef3, 0x3390af7f, 0xd9fc690b, 0xcfacafd2,
      0xe46bea80, 0xb00a5631, 0x974c541a, 0x359e9963, 0x5c971061, 0xccc07c79, 0x2098d9d6, 0x91dbd320] := by decide
/-- V-RND1. -/
theorem test_colround : colround ramp =
    #v[0x8000c004, 0xb000c006, 0x6000c008, 0x5000c00a, 0x64624444, 0xe5e35cdd, 0x63643533, 0xe2e52daa,
      0x08c80488, 0x0bcb06b9, 0x06c6086a, 0x05c50a5b, 0x08c00480, 0x0bc006b0, 0x06c00860, 0x05c00a50] := by decide
/-- V-RND2. -/
theorem test_diaground : diaground ramp =
    #v[0xa000f005, 0xb000d007, 0x4000f009, 0x9000d007, 0xecebcccc, 0x7d7ad555, 0xedebdddd, 0x7a7ca422,
      0x04f40948, 0x09d90799, 0x0afa05aa, 0x0bdb07bb, 0x0bd007b0, 0x04f00940, 0x09d00790, 0x0af005a0] := by decide
/-- V-RND3. -/
theorem test_doubleround : doubleround ramp =
    #v[0xa9295c6a, 0xb471be7a, 0x38e65ec4, 0x74348b87, 0xf1ad76c6, 0x7b44627b, 0x946682b0, 0xf12f4910,
      0xd7e22f80, 0x3232ddd4, 0xb5b3b74d, 0xc0240444, 0xc8a5de45, 0xe417e1d3, 0x1a392478, 0x983c4ebf] := by decide
/-- The two parities of ROUND, word 1 of V-RND1 and V-RND2. -/
theorem test_round : (after (exec (.round 18 ramp) idle)).map (·.result[1]?) = some (some 0xb000c006) ∧
    (after (exec (.round 19 ramp) idle)).map (·.result[1]?) = some (some 0xb000d007) := by decide
/-- V-BLK1, all sixteen working words after round 20. -/
theorem test_rounds_blk1 : roundsFn blkS 20 = blkW := by decide +kernel
/-- V-BLK1, all sixteen output words. -/
theorem test_block_blk1 : blockFn blkS = blkOut := by decide +kernel
/-- V-BLK2 (key and nonce zero, counter 1), the output words program P2 reads. -/
theorem test_block_blk2 :
    blockFn #v[0x61707865, 0x3320646e, 0x79622d32, 0x6b206574, 0, 0, 0, 0, 0, 0, 0, 0, 1, 0, 0, 0] =
    #v[0xbee7079f, 0x7a385155, 0x7c97ba98, 0x0d082d73, 0xa0290fcb, 0x6965e348, 0x3e53c612, 0xed7aee32,
      0x7621b729, 0x434ee69c, 0xb03371d5, 0xd539d874, 0x281fed31, 0x45fb0a51, 0x1f0ae1ac, 0x6f4d794b] := by decide +kernel
theorem test_bswap32 : bswap32 0x12345678 = 0x78563412 ∧ bswap32 0x0000004A = 0x4A000000 := by decide
/-- The scenario's literals build `S` of V-BLK1 (44_endianness R183). -/
theorem test_initialState : initialState #v[0x00010203, 0x04050607, 0x08090a0b, 0x0c0d0e0f, 0x10111213, 0x14151617,
    0x18191a1b, 0x1c1d1e1f, 0x01000000, 0x00000009, 0x0000004a, 0x00000000] = blkS := by decide
/-- The first keystream bytes of V-BLK1. -/
theorem test_keystream : (keystream blkOut).take 8 = [0x10, 0xf1, 0xe7, 0xe4, 0xd1, 0x3b, 0x59, 0x15] := by decide
/-- Twelve wired operations, four of each kind (42_rounds_and_schedule R149 divides 320 of each by 80). -/
theorem test_qrWiring_counts : qrWiring.length = 12 ∧
    (qrWiring.filter fun | .add _ _ => true | _ => false).length = 4 ∧
    (qrWiring.filter fun | .rotl _ _ => true | _ => false).length = 4 := by decide

/-! ### Commands: the corner cases of 95_test_vectors section 2.9 -/

theorem test_wrState_idle : (after (exec (.wrState 3 0xAAAAAAAA) idle)).map (fun t => (t.S[3], t.ERR)) =
    some (0xAAAAAAAA, false) := by decide
theorem test_wrState_running : (after (exec (.wrState 3 0xAAAAAAAA) running)).map (fun t => (t.S[3], t.ERR, t.CAUSE)) =
    some (0x6B206574, true, 1) := by decide
theorem test_rdOut_finished : (after (exec (.rdOut 0) finished)).map (fun t => (t.responses, t.ERR)) =
    some ([0xE4E7F110], false) := by decide
theorem test_rdOut_running : (after (exec (.rdOut 0) running)).map (fun t => (t.responses, t.CAUSE)) = some ([0], 3) := by decide
theorem test_start_finished : (after (exec .start finished)).map (fun t => (t.BUSY, t.DONE, t.rnd, decide (t.W = blkS))) =
    some (true, false, 0, true) := by decide
theorem test_start_running : (after (exec .start running)).map (fun t => (t.rnd, decide (t.W = ramp), t.CAUSE)) =
    some (7, true, 2) := by decide
theorem test_first_cause_kept : (after (exec .start (marked running))).map (·.CAUSE) = some 3 := by decide
theorem test_wrCtrlNop : after (exec .wrCtrlNop running) = some running := by decide
theorem test_rdCtrl : (after (exec .rdCtrl running)).map (·.responses) = some [0] := by decide
/-- STATUS values: RUNNING with first violation 3, FINISHED clean. -/
theorem test_rdStatus : (after (exec .rdStatus (marked running))).map (·.responses) = some [0x35] ∧
    (after (exec .rdStatus finished)).map (·.responses) = some [2] := by decide
theorem test_rdState : (after (exec (.rdState 12) running)).map (fun t => (t.responses, t.ERR)) = some ([1], false) := by decide
theorem test_rdRsvd : (after (exec (.rdRsvd 0x22) idle)).map (fun t => (t.responses, t.ERR, t.CAUSE)) =
    some ([0], true, 5) := by decide
theorem test_wrRsvd : (after (exec (.wrRsvd 0x3F 1) idle)).map (fun t => (t.ERR, t.CAUSE, decide (t.S = blkS))) =
    some (true, 5, true) := by decide
theorem test_wrOut : (after (exec (.wrOut 0 0x12345678) finished)).map (fun t => (t.OUT[0], t.CAUSE)) =
    some (0xE4E7F110, 4) := by decide
/-- P3: WR STATUS does not clear a recorded violation. -/
theorem test_wrStatus : (after (exec (.wrStatus 0) (marked idle))).map (fun t => (t.ERR, t.CAUSE)) = some (true, 3) := by decide

/-! ### The ENGINE and RESET -/

/-- Round 7 is a diagonal round (30_encoding R90), V-RND2's word 4. -/
theorem test_eRound : (after (exec .eRound running)).map (fun t => (t.W[4], t.rnd)) = some (0xecebcccc, 8) := by decide
theorem test_entry_colround : (after (exec (.colround 18) (st true false 18))).map (fun t => (t.W[4], t.rnd)) =
    some (0x64624444, 19) := by decide
theorem test_entry_diaground : (after (exec (.diaground 19) (st true false 19))).map (fun t => (t.W[4], t.rnd)) =
    some (0xecebcccc, 20) := by decide
/-- V-BLK1's last step: `OUT = FINALADD(S, W)`. -/
theorem test_eFinal : (after (exec .eFinal { st true false 20 with W := blkW, OUT := ramp })).map
    (fun t => (decide (t.OUT = blkOut), t.BUSY, t.DONE, t.rnd)) = some (true, false, true, 0) := by decide
theorem test_finaladd : (after (exec .finaladd { st true false 20 with W := blkW })).map (fun t => (t.OUT[13], t.DONE)) =
    some (0xb94e16de, true) := by decide
theorem test_seqRsvd : exec (.seqRsvd 21) running = .fault .engineStuck := rfl
theorem test_reset : (after (exec .reset (marked running))).map (fun t => (t.BUSY, t.DONE, t.ERR, t.CAUSE, t.rnd)) =
    some (false, false, false, 0, 0) := by decide
theorem test_copy : (after (exec .copy idle)).map (fun t => decide (t.W = blkS)) = some true := by decide

/-! ### Pseudo-instructions (30_encoding R96) and steps -/

theorem test_loadstate : (after (exec (.loadstate ramp) idle)).map (fun t => (t.S[0], t.program.head?)) =
    some (0, some (.command 0x4100000001)) := by decide
theorem test_readout : (after (exec .readout finished)).map (fun t => (t.responses, t.program.getLast?)) =
    some ([0xE4E7F110], some (.command 0x1F00000000)) := by decide
theorem test_poll : (after (exec .poll running)).map (fun t => (t.responses, t.program)) = some ([1], [.poll]) ∧
    (after (exec .poll finished)).map (fun t => (t.responses, t.program)) = some ([2], []) := by decide
theorem test_runblock : (after (exec .runblock idle)).map (fun t => (t.BUSY, t.program)) =
    some (true, [.poll, .readout]) := by decide
theorem test_setctr : (after (exec (.setctr 2) finished)).map (fun t => (t.S[12], t.DONE)) = some (2, true) := by decide
theorem test_step_fetch_bus : (after (step (State.reset.withFetchWord 40 0x4403020100))).map (fun t => t.S[4]) =
    some 0x03020100 := by decide
theorem test_step_fetch_seq : (after (step (State.reset.withFetchWord 8 0))).map (·.rnd) = some 1 := by decide
theorem test_memRead : (after (memRead 0x0C 1 running)).map (·.responses) = some [1] ∧
    memRead 0x0C 2 running = .refused .accessWidth := ⟨by decide, rfl⟩

/-! ### Witnesses: for every obligation with hypotheses, a state and operands that meet them, for each clause -/

theorem witness_DecodeEncodeRoundTrip :
    ((Instr.wrRsvd 0x22 7).wf = true ∧ encode (.wrRsvd 0x22 7) = some (.bus 0x6200000007)) ∧
    ((Instr.seqRsvd 31).wf = true ∧ encode (.seqRsvd 31) = some (.seq 31)) := by decide
theorem witness_FieldsSelectTheCommand :
    (0xFFFFFFFF#32).getLsbD 0 = true ∧ (0xFFFFFFFE#32).getLsbD 0 = false ∧
    0x22 ≤ (0x22#6).toNat ∧ 0x22 ≤ (0x3F#6).toNat := by decide
theorem witness_MicroProgramEntries :
    ((0#5).toNat < 20 ∧ (0#5).getLsbD 0 = false) ∧ ((18#5).toNat < 20 ∧ (18#5).getLsbD 0 = false) ∧
    ((1#5).toNat < 20 ∧ (1#5).getLsbD 0 = true) ∧ ((19#5).toNat < 20 ∧ (19#5).getLsbD 0 = true) ∧
    (20#5).toNat = 20 ∧ 20 < (21#5).toNat ∧ 20 < (31#5).toNat := by decide
theorem witness_HostTurnRunsTheDecodedCommand :
    ({ idle with turns := [.host], program := [.command 0x6000000001] }.turns = .host :: [] ∧
      { idle with turns := [.host], program := [.command 0x6000000001] }.program = .command 0x6000000001 :: []) ∧
    ({ idle with turns := [.host], program := [.poll] }.program = .poll :: []) ∧
    { idle with turns := [.host], program := [] }.program = [] := ⟨⟨rfl, rfl⟩, rfl, rfl⟩
theorem witness_EngineAndResetTurnsRunTheirSteps :
    ({ running with turns := [.engine] }.turns = .engine :: [] ∧ { running with turns := [.engine] }.BUSY = true) ∧
    ({ idle with turns := [.engine] }.turns = .engine :: [] ∧ { idle with turns := [.engine] }.BUSY = false) ∧
    { idle with turns := [.reset] }.turns = .reset :: [] ∧
    (running.turns = [] ∧ running.BUSY = true) ∧ (idle.turns = [] ∧ idle.BUSY = false ∧ idle.program = []) ∧
    ({ idle with program := [.poll] }.turns = [] ∧ { idle with program := [.poll] }.program = .poll :: []) :=
  ⟨⟨rfl, rfl⟩, ⟨rfl, rfl⟩, rfl, ⟨rfl, rfl⟩, ⟨rfl, rfl, rfl⟩, rfl, rfl⟩
/-- For the four statements whose clauses are the two values of BUSY or of DONE (WR_STATE, RD_OUT, START, POLL), and the two
values of CTRL bit 0. -/
theorem witness_busy_and_done :
    idle.BUSY = false ∧ running.BUSY = true ∧ finished.DONE = true ∧ running.DONE = false ∧
    (1#32).getLsbD 0 = true ∧ (0xFFFFFFFE#32).getLsbD 0 = false := by decide
theorem witness_WrStateStoresUnlessBusy : (0 : Fin 16) ≠ 15 ∧ idle.BUSY = false ∧ running.BUSY = true := by decide
theorem witness_ReservedAccessesAreViolation5 : 0x22 ≤ (0x22#6).toNat ∧ 0x22 ≤ (0x3F#6).toNat := by decide
theorem witness_OnlyResetClearsTheRecord :
    (∃ t, exec (.wrStatus 0) (marked idle) = .next t ∧ (marked idle).ERR = true ∧ Instr.wrStatus 0 ≠ .reset) ∧
    (∃ t, exec .reset (marked idle) = .next t) := ⟨⟨_, rfl, by decide⟩, _, rfl⟩
theorem witness_CausesAreThoseOfTheTable :
    (∃ t, exec (.wrState 15 0) running = .next t ∧ running.ERR = false ∧ t.ERR = true) ∧
    (∃ t, exec .start running = .next t ∧ running.ERR = false ∧ t.ERR = true) ∧
    (∃ t, exec (.rdOut 15) running = .next t ∧ running.ERR = false ∧ t.ERR = true) ∧
    (∃ t, exec (.wrOut 15 0) idle = .next t ∧ idle.ERR = false ∧ t.ERR = true) ∧
    (∃ t, exec (.rdRsvd 0x22) idle = .next t ∧ idle.ERR = false ∧ t.ERR = true) :=
  ⟨⟨_, rfl, by decide⟩, ⟨_, rfl, by decide⟩, ⟨_, rfl, by decide⟩, ⟨_, rfl, by decide⟩, ⟨_, rfl, by decide⟩⟩
theorem witness_ViolationsDisturbNothing :
    ∃ t, exec (.wrState 0 1) running = .next t ∧ running.ERR = false ∧ t.ERR = true := ⟨_, rfl, by decide⟩
theorem witness_RecordInfluencesNothingElse :
    ∃ t, exec (.rdOut 0) finished = .next t ∧ Instr.rdOut 0 ≠ .rdStatus ∧ Instr.rdOut 0 ≠ .poll := ⟨_, rfl, by decide⟩
theorem witness_WrStateWritesOneAddress :
    (∃ t, exec (.wrState 15 1) idle = .next t ∧ idle.BUSY = false) ∧
    (∃ t, exec (.wrState 15 1) (marked running) = .next t ∧ (marked running).BUSY = true ∧ (marked running).ERR = true) ∧
    (0x10#6 ≠ stateAddr 15 ∧ 0x10#6 ≠ 0x21) ∧ (0x22#6 ≠ stateAddr 15 ∧ 0x22#6 ≠ 0x21) :=
  ⟨⟨_, rfl, by decide⟩, ⟨_, rfl, by decide⟩, by decide, by decide⟩
theorem witness_StorelessCommandsKeepTheWindow :
    (∃ t, exec (.rdState 15) running = .next t) ∧ (∃ t, exec (.rdOut 15) running = .next t) ∧
    (∃ t, exec (.wrRsvd 0x3F 1) running = .next t ∧ (0x20#6 : BitVec 6) ≠ 0x21) ∧
    (∃ t, exec (.wrStatus 0) (marked running) = .next t ∧ (marked running).ERR = true) ∧
    (∃ t, exec (.rdOut 15) finished = .next t ∧ finished.DONE = true) :=
  ⟨⟨_, rfl⟩, ⟨_, rfl⟩, ⟨_, rfl, by decide⟩, ⟨_, rfl, by decide⟩, _, rfl, by decide⟩
theorem witness_MemReadReturnsTheWindow :
    readViolation 0x21 idle = none ∧ readViolation 0x10 finished = none ∧
    readViolation 0x1F running = some .rdOutNotDone ∧ readViolation 0x22 idle = some .reservedAddr ∧ (0 : Nat) ≠ 1 := by decide
theorem witness_ERoundMixesAndAdvances :
    ((st true false 0).BUSY = true ∧ (st true false 0).rnd.toNat < 20 ∧ (st true false 0).rnd.getLsbD 0 = false) ∧
    ((st true false 19).BUSY = true ∧ (st true false 19).rnd.toNat < 20 ∧ (st true false 19).rnd.getLsbD 0 = true) := by decide
theorem witness_EFinalAddsAndFinishes : (st true false 20).BUSY = true ∧ (st true false 20).rnd.toNat = 20 := by decide
theorem witness_SelectedEntriesAreTheEnginesSteps :
    ((st true false 18).BUSY = true ∧ (st true false 18).rnd = 18 ∧ (18#5).toNat < 20 ∧ (18#5).getLsbD 0 = false) ∧
    ((st true false 19).BUSY = true ∧ (st true false 19).rnd = 19 ∧ (19#5).toNat < 20 ∧ (19#5).getLsbD 0 = true) ∧
    ((st true false 20).BUSY = true ∧ (st true false 20).rnd = 20 ∧ (20#5).toNat = 20) := by decide
theorem witness_ReservedIndicesAreStuck :
    20 < (21#5).toNat ∧ 20 < (31#5).toNat ∧
    { st true false 21 with turns := [.engine] }.turns = .engine :: [] ∧
    { st true false 21 with turns := [.engine] }.BUSY = true ∧ 20 < { st true false 21 with turns := [.engine] }.rnd.toNat := by
  decide
theorem witness_ReservedIndicesAreStuck_reach :
    ControlInv (st true false 19) ∧ ∃ t, step (st true false 19) = .next t ∧ t.rnd.toNat = 20 :=
  ⟨⟨by decide, by decide, by decide, by decide, by decide⟩, _, rfl, by decide⟩
theorem witness_ResetLeavesTheHostsSide : ∃ t, exec .reset (marked running) = .next t := ⟨_, rfl⟩
theorem witness_DisabledEngineStepsChangeNothing :
    idle.BUSY = false ∧ 20 ≤ (st true false 20).rnd.toNat ∧ (st true false 19).rnd.toNat ≠ 20 ∧ (st true false 1).rnd ≠ 3 := by decide
theorem witness_ArxPrimitivesComplete : (0 < 1 ∧ 1 < 32) ∧ (0 < 31 ∧ 31 < 32) ∧ 32 ≤ 32 := by decide
theorem witness_RotationsUndoEachOther : (0 < 1 ∧ 1 < 32) ∧ (0 < 31 ∧ 31 < 32) := by decide
theorem witness_LaneOrderDoesNotMatter : ([3, 1, 2, 0] : List (Fin 4)).Perm [0, 1, 2, 3] := by decide
theorem witness_PseudoInstructionsPerformTheirExpansion :
    (1 : Fin 16) ≠ 0 ∧ (15 : Fin 16) ≠ 0 ∧ finished.DONE = true ∧ running.DONE = false := by decide
theorem witness_LoadstateLoadsAllSixteenWords :
    { idle with program := [.loadstate ramp, .poll] }.BUSY = false ∧ { idle with program := [.loadstate ramp, .poll] }.turns = [] ∧
    { idle with program := [.loadstate ramp, .poll] }.program = .loadstate ramp :: [.poll] := ⟨rfl, rfl, rfl⟩
theorem witness_ReadoutReturnsTheWholeOutput :
    { finished with program := [.readout] }.BUSY = false ∧ { finished with program := [.readout] }.DONE = true ∧
    { finished with program := [.readout] }.turns = [] ∧ { finished with program := [.readout] }.program = .readout :: [] :=
  ⟨rfl, rfl, rfl, rfl⟩
theorem witness_RunblockDeliversTheBlock :
    { finished with program := [.runblock] }.BUSY = false ∧ { finished with program := [.runblock] }.turns = [] ∧
    { finished with program := [.runblock] }.program = .runblock :: [] := ⟨rfl, rfl, rfl⟩

/-- A running state in which the transform of `S` of V-BLK1 has just been started, the ENGINE to move. -/
def started : State := { st true false 0 with W := blkS, turns := [.engine] }

theorem witness_invariants : ControlInv started ∧ WorkingInv started ∧ ∃ t, step started = .next t :=
  ⟨⟨by decide, by decide, by decide, by decide, by decide⟩, fun _ => rfl, _, rfl⟩
theorem witness_TransformKeepsItsStartingState :
    (idle.BUSY = false ∧ ∃ t, exec .start idle = .next t) ∧
    (TransformOf blkS started ∧ (∃ t, step started = .next t) ∧ nextTurn started ≠ .reset ∧ nextTurn started ≠ .host) ∧
    (TransformOf blkS { started with turns := [.host], program := [.command 0x6000000001] } ∧
      ¬acceptsStart (HostOp.command 0x6000000001).instr { started with turns := [.host], program := [.command 0x6000000001] }) :=
  ⟨⟨rfl, _, rfl⟩,
    ⟨⟨.inl rfl, fun _ => ⟨rfl, rfl, by decide, rfl⟩, fun h => by cases h⟩, ⟨_, rfl⟩, by decide, by decide⟩,
    ⟨⟨.inl rfl, fun _ => ⟨rfl, rfl, by decide, rfl⟩, fun h => by cases h⟩, fun h => by cases h.1⟩⟩
theorem witness_RunsNeverStop : ControlInv running ∧ ControlInv (st true false 20) :=
  ⟨⟨by decide, by decide, by decide, by decide, by decide⟩, ⟨by decide, by decide, by decide, by decide, by decide⟩⟩

/-- Twenty ENGINE turns with two HOST turns among them. -/
def someTurns : List Turn := [.engine, .host] ++ List.replicate 19 .engine ++ [.host]

theorem witness_TransformUnderEveryInterleaving :
    let s : State := { idle with program := [.command 0x6000000001, .poll], turns := .host :: someTurns ++ .engine :: [.host] }
    s.BUSY = false ∧ s.program = .command 0x6000000001 :: [.poll] ∧ s.turns = .host :: someTurns ++ .engine :: [.host] ∧
      noReset someTurns ∧ someTurns.count .engine = 20 := ⟨rfl, rfl, rfl, by unfold noReset; decide, by decide⟩
/-- A state that meets the hypotheses of CanonicalSequenceIsCleanAndCorrect for its first sequence. -/
def aboutToLoad : State := { finished with program := [.loadstate blkS, .runblock], turns := [.host, .engine] }
/-- And one for its second. -/
def aboutToCount : State := { finished with program := [.setctr 2, .runblock], turns := [.host, .engine] }

/-- Both sequences reach the end of the program: an idle ENGINE turn, 16 or 1 writes, START, 21 ENGINE steps, one STATUS
reading, 16 reads. -/
theorem witness_CanonicalSequenceIsCleanAndCorrect :
    (aboutToLoad.BUSY = false ∧ aboutToLoad.ERR = false ∧ aboutToLoad.program = [.loadstate blkS, .runblock] ∧
      noReset aboutToLoad.turns ∧ (after (runFor 56 aboutToLoad)).map (·.program) = some []) ∧
    (aboutToCount.BUSY = false ∧ aboutToCount.ERR = false ∧ aboutToCount.program = [.setctr 2, .runblock] ∧
      noReset aboutToCount.turns ∧ (after (runFor 41 aboutToCount)).map (·.program) = some []) :=
  ⟨⟨rfl, rfl, rfl, by unfold noReset; decide, by decide +kernel⟩, rfl, rfl, rfl, by unfold noReset; decide, by decide +kernel⟩
theorem witness_RegistersHaveTheirOnlyWriters :
    (∃ t, exec (.wrState 0 0) idle = .next t ∧ t.S ≠ idle.S) ∧
    (∃ t, exec .eFinal (st true false 20) = .next t ∧ t.OUT ≠ blkOut ∧ t.DONE ≠ false) ∧
    (∃ t, exec .start idle = .next t ∧ t.W ≠ idle.W ∧ t.BUSY ≠ idle.BUSY) ∧
    (∃ t, exec .copy idle = .next t ∧ t.W ≠ idle.W) ∧
    (∃ t, exec .eRound (st true false 19) = .next t ∧ t.W ≠ ramp ∧ t.rnd ≠ 19) ∧
    (∃ t, exec (.colround 18) (st true false 18) = .next t ∧ t.W ≠ ramp ∧ t.rnd ≠ 18) :=
  ⟨⟨_, rfl, by decide⟩, ⟨_, rfl, by decide⟩, ⟨_, rfl, by decide⟩, ⟨_, rfl, by decide⟩, ⟨_, rfl, by decide⟩, _, rfl, by decide⟩
theorem witness_HiddenStateIsUnobservable :
    ((finished.DONE = true → blkOut = finished.OUT) ∧ (running.DONE = true → ramp = running.OUT)) ∧
    ∃ t, exec (HostOp.command 0x1000000000).instr finished = .next t ∧ t.DONE = true := ⟨by decide, _, rfl, by decide⟩
theorem witness_RacingWriteHasBothOutcomesAndOneResult :
    { finished with program := [.command 0x6000000001, .command 0x4C00000002] }.BUSY = false ∧
    { finished with program := [.command 0x6000000001, .command 0x4C00000002] }.ERR = false ∧
    { finished with program := [.command 0x6000000001, .command 0x4C00000002] }.program =
      [.command 0x6000000001, .command 0x4C00000002] := ⟨rfl, rfl, rfl⟩
theorem witness_EnginesShareNothing : ∃ fs, stepEngine (0 : Fin 2) #v[started, idle] = .next fs := ⟨_, rfl⟩

end Sys2Proof.Tests
end

section
/-! PROOFS. 00_scope: what RESET leaves alone. -/

namespace Sys2Proof.Machine

/-- Settles O32: RESET's only outcome is `resetEngine`, which keeps each of the host's four fields. -/
theorem resetLeavesTheHostsSide : Obligations.ResetLeavesTheHostsSide := by
  intro s t h
  rw [exec_reset] at h
  obtain rfl := Host.Outcome.next.inj h
  exact ⟨resetEngine_responses s, resetEngine_result s, resetEngine_program s, resetEngine_turns s⟩

end Sys2Proof.Machine
end

section
/-! PROOFS. 10_state: the invariants of the control state and of the working registers, and the transform in progress. -/

namespace Sys2Proof.Machine

/-- A step that answers a state: an idle turn, a host operation, a round, the final addition or a RESET. -/
inductive StepTo (s : State) : State → Prop where
  | idle : StepTo s (popTurn s)
  | host {op : HostOp} {rest : List HostOp} {t : State} (turn : nextTurn s = .host) (prog : s.program = op :: rest)
      (run : exec op.instr { popTurn s with program := rest } = .next t) (effect : hostEffect s t) : StepTo s t
  | round (turn : nextTurn s = .engine) (busy : s.BUSY = true) (lt : s.rnd.toNat < 20) :
      StepTo s (applyRound (roundFn s.rnd.toNat) (popTurn s))
  | final (turn : nextTurn s = .engine) (busy : s.BUSY = true) (eq : s.rnd.toNat = 20) :
      StepTo s (finishTransform (popTurn s))
  | reset (turn : nextTurn s = .reset) : StepTo s (resetEngine (popTurn s))

/-- `step_cases` for a step known to answer a state. -/
theorem stepTo_of_step {s t : State} (h : step s = .next t) : StepTo s t := by
  rcases step_cases s with e | ⟨hu, op, rest, u, hp, e, hx, he⟩ | ⟨hu, hb, hr, e⟩ | ⟨hu, hb, hr, e⟩ | ⟨_, _, _, e⟩ | ⟨hu, e⟩ <;>
    rw [h] at e
  · exact Host.Outcome.next.inj e ▸ .idle
  · exact Host.Outcome.next.inj e ▸ .host hu hp hx he
  · exact Host.Outcome.next.inj e ▸ .round hu hb hr
  · exact Host.Outcome.next.inj e ▸ .final hu hb hr
  · cases e
  · exact Host.Outcome.next.inj e ▸ .reset hu

/-! ### The control state: (I-a) to (I-d) -/

/-- The record stays consistent: a recorded code is one of 1 to 5, and an unrecorded violation leaves 0. -/
theorem recordStep_keeps_causes {s t : State} (h : recordStep s t) (hi : s.ERR = false ↔ s.CAUSE = 0)
    (hc : s.CAUSE.toNat ≤ 5) : (t.ERR = false ↔ t.CAUSE = 0) ∧ t.CAUSE.toNat ≤ 5 := by
  obtain ⟨he, hk⟩ | ⟨c, he, hk⟩ := h
  · rw [he, hk]
    exact ⟨hi, hc⟩
  · obtain ⟨hne, hle⟩ := c.code_range
    cases hs : s.ERR <;> simp_all

theorem ControlInv.of_hostEffect {s t : State} (hs : ControlInv s) (h : hostEffect s t) : ControlInv t := by
  obtain ⟨hboth, hrest, hrange, hcause, hcode⟩ := hs
  obtain ⟨-, ⟨hr, hb, hd⟩, hrec⟩ | ⟨_, _, _, _, ⟨hr, hb, hd⟩, hrec⟩ | ⟨_, _, _, _, hr, hb, hd, hrec⟩ := h
  · obtain ⟨hcause', hcode'⟩ := recordStep_keeps_causes hrec hcause hcode
    exact ⟨by rwa [hb, hd], by rwa [hb, hr], by rwa [hr], hcause', hcode'⟩
  · obtain ⟨he, hk⟩ := hrec
    exact ⟨by rwa [hb, hd], by rwa [hb, hr], by rwa [hr], by rwa [he, hk], by rwa [hk]⟩
  · obtain ⟨he, hk⟩ := hrec
    exact ⟨by simp [hd], by simp [hb], by simp [hr], by rwa [he, hk], by rwa [hk]⟩

/-- Settles O51: each of the five things a step can do keeps the four invariants; a round stays at or below 20 because it
is taken below 20. -/
theorem everyStepKeepsTheControlInvariant : Obligations.EveryStepKeepsTheControlInvariant := by
  intro s t hs h
  have ⟨hboth, hrest, hrange, hcause, hcode⟩ := hs
  cases stepTo_of_step h with
  | idle => exact ⟨hboth, hrest, hrange, hcause, hcode⟩
  | host _ _ _ effect => exact hs.of_hostEffect effect
  | round _ busy lt =>
    have hr : (s.rnd + 1).toNat ≤ 20 := by
      rw [rnd_succ s.rnd lt]
      exact lt
    exact ⟨hboth, by simp [busy], hr, hcause, hcode⟩
  | final => exact ⟨by simp, by simp, by simp, hcause, hcode⟩
  | reset => exact ⟨by simp, by simp, by simp, by simp, by simp⟩

/-! ### The working registers: (I-e) -/

/-- One more round after `n` of them (42_rounds_and_schedule R146), with the index as the counter holds it. -/
theorem roundFn_roundsFn_rnd (X : Block) (r : BitVec 5) (h : r.toNat < 20) :
    roundFn r.toNat (roundsFn X r.toNat) = roundsFn X (r + 1).toNat := by
  rw [rnd_succ r h, roundsFn]

theorem WorkingInv.of_hostEffect {s t : State} (hs : WorkingInv s) (h : hostEffect s t) : WorkingInv t := by
  intro ht
  obtain ⟨⟨hS, hW, _⟩, ⟨hr, hb, _⟩, _⟩ | ⟨hidle, _, _, _, ⟨_, hb, _⟩, _⟩ | ⟨_, hS, hW, _, hr, _, _, _⟩ := h
  · rw [hW, hS, hr]
    exact hs (hb ▸ ht)
  · rw [hb, hidle] at ht
    cases ht
  · rw [hW, hS, hr]
    rfl

/-- Settles O52: while `BUSY = 1` the host can write neither S nor W, an accepted START makes `W = ROUNDS(S, 0)`, and a round
adds itself to the rounds done. -/
theorem everyStepKeepsTheWorkingInvariant : Obligations.EveryStepKeepsTheWorkingInvariant := by
  intro s t _ hw h
  cases stepTo_of_step h with
  | idle => exact hw
  | host _ _ _ effect => exact hw.of_hostEffect effect
  | round _ busy lt =>
    intro _
    simp only [applyRound_W, applyRound_S, applyRound_rnd, popTurn_W, popTurn_S, popTurn_rnd]
    rw [hw busy, roundFn_roundsFn_rnd s.S s.rnd lt]
  | final => exact fun ht => by cases ht
  | reset => exact fun ht => by cases ht

/-! ### The transform in progress: (I-f) -/

/-- An accepted START on `X = S` begins the transform of `X`. -/
theorem TransformOf.of_startTransform (s : State) (h : s.BUSY = false) : TransformOf s.S (startTransform s) := by
  obtain ⟨_, e⟩ | ⟨hb, _⟩ := startTransform_cases s
  · rw [e]
    exact ⟨.inl rfl, fun _ => ⟨rfl, rfl, Nat.zero_le 20, rfl⟩, fun hd => by cases hd⟩
  · simp [h] at hb

/-- A host operation that starts no transform keeps the one there is: it cannot write S while that runs, nor OUT at all. -/
theorem TransformOf.of_hostEffect {X : Block} {s t : State} (hs : TransformOf X s) (h : hostEffect s t)
    (hstart : s.BUSY = false → t.BUSY = false) : TransformOf X t := by
  obtain ⟨hphase, hlocked, hout⟩ := hs
  obtain ⟨⟨hS, hW, hO⟩, ⟨hr, hb, hd⟩, _⟩ | ⟨hidle, _, _, hO, ⟨_, hb, hd⟩, _⟩ | ⟨hidle, _, _, _, _, hb, _, _⟩ := h
  · exact ⟨by rwa [hb, hd], by rwa [hb, hS, hW, hr, hd], by rwa [hd, hO, hb]⟩
  · exact ⟨by rwa [hb, hd], fun ht => by simp [hb, hidle] at ht, by rwa [hd, hO, hb]⟩
  · simp [hstart hidle] at hb

/-- The final addition after twenty rounds on `X` delivers `BLOCK(X)`. -/
theorem TransformOf.of_finishTransform {X : Block} {s : State} (hs : TransformOf X s) (busy : s.BUSY = true)
    (h20 : s.rnd.toNat = 20) : TransformOf X (finishTransform s) := by
  obtain ⟨hS, hW, _, _⟩ := hs.locked busy
  refine ⟨.inr rfl, fun hb => (by cases hb), fun _ => ⟨?_, rfl⟩⟩
  rw [finishTransform_OUT, hS, hW, h20, blockFn]

theorem TransformOf.of_applyRound {X : Block} {s : State} (hs : TransformOf X s) (busy : s.BUSY = true)
    (lt : s.rnd.toNat < 20) : TransformOf X (applyRound (roundFn s.rnd.toNat) s) := by
  obtain ⟨hS, hW, _, hd⟩ := hs.locked busy
  refine ⟨.inl busy, fun _ => ⟨hS, ?_, ?_, hd⟩, fun h => ?_⟩
  · rw [applyRound_W, applyRound_rnd, hW, roundFn_roundsFn_rnd X s.rnd lt]
  · rw [applyRound_rnd, rnd_succ s.rnd lt]
    exact lt
  · simp [hd] at h

theorem TransformOf.of_popTurn {X : Block} {s : State} (hs : TransformOf X s) : TransformOf X (popTurn s) :=
  ⟨hs.phase, hs.locked, hs.output⟩

/-- Settles O53: an accepted START establishes `TransformOf`, and every step but a RESET and another accepted START keeps it. -/
theorem transformKeepsItsStartingState : Obligations.TransformKeepsItsStartingState := by
  refine ⟨fun s t hb h => Host.Outcome.next.inj h ▸ .of_startTransform s hb, fun X s t hs h hreset hstart => ?_⟩
  cases stepTo_of_step h with
  | idle => exact hs.of_popTurn
  | host turn prog run effect =>
    refine hs.of_hostEffect effect fun hidle => Bool.eq_false_iff.mpr fun hbusy => ?_
    exact hstart turn _ _ prog ⟨hidle, exec_sets_busy run hidle hbusy⟩
  | round _ busy lt => exact hs.of_popTurn.of_applyRound busy lt
  | final _ busy h20 => exact hs.of_popTurn.of_finishTransform busy h20
  | reset turn => exact absurd turn hreset

/-! ### After reset -/

/-- Settles O50: each conjunct is a fact about the one literal state. -/
theorem resetStateMeetsTheInvariants : Obligations.ResetStateMeetsTheInvariants := by
  refine ⟨rfl, rfl, rfl, rfl, rfl, by decide, by decide, ?_, ?_⟩
  · exact ⟨by decide, by decide, by decide, by decide, by decide⟩
  · exact fun hb => by cases hb

end Sys2Proof.Machine
end

section
/-! PROOFS. 10_state: what the host cannot see of W, `rnd` and OUT. -/

namespace Sys2Proof.Machine

/-- Two states the host cannot tell apart: they differ only in W, `rnd` and, while `DONE = 0`, OUT (10_state R23, R27, R34). -/
def hostAlike (s s' : State) : Prop :=
  { s' with W := s.W, rnd := s.rnd, OUT := s.OUT } = s ∧ (s.DONE = true → s'.OUT = s.OUT)

theorem hostAlike_iff {s s' : State} : hostAlike s s' ↔
    s'.S = s.S ∧ (s'.BUSY = s.BUSY ∧ s'.DONE = s.DONE) ∧ keepsRecord s s' ∧ s'.responses = s.responses ∧
      keepsAgents s s' ∧ (s.DONE = true → s'.OUT = s.OUT) := by
  obtain ⟨⟩ := s
  obtain ⟨⟩ := s'
  simp only [hostAlike, keepsRecord, keepsAgents, State.mk.injEq, true_and, and_assoc]

section
variable {s s' : State} (h : hostAlike s s')
include h

theorem hostAlike.S_eq : s'.S = s.S := by
  obtain ⟨hS, _⟩ := hostAlike_iff.mp h
  exact hS

theorem hostAlike.DONE_eq : s'.DONE = s.DONE := by
  obtain ⟨_, ⟨_, hd⟩, _⟩ := hostAlike_iff.mp h
  exact hd

theorem hostAlike.statusWord_eq : statusWord s' = statusWord s := by
  obtain ⟨_, ⟨hb, hd⟩, ⟨he, hc⟩, _⟩ := hostAlike_iff.mp h
  rw [statusWord, statusWord, hb, hd, he, hc]

theorem hostAlike.outGated_eq (i : Fin 16) : outGated i s' = outGated i s := by
  obtain ⟨_, ⟨_, hd⟩, _, _, _, ho⟩ := hostAlike_iff.mp h
  cases hs : s.DONE <;> simp_all [outGated]

/-! Every update a host operation is made of keeps such states alike. -/

theorem hostAlike.respond (v : Word) : hostAlike (respond v s) (respond v s') := by
  simp_all [hostAlike_iff, keepsRecord, keepsAgents]

theorem hostAlike.deliver (vs : List Word) : hostAlike (deliver vs s) (deliver vs s') := by
  simp_all [hostAlike_iff, keepsRecord, keepsAgents]

theorem hostAlike.issue (ops : List HostOp) : hostAlike (issue ops s) (issue ops s') := by
  simp_all [hostAlike_iff, keepsRecord, keepsAgents]

theorem hostAlike.raiseViolation (c : Violation) : hostAlike (raiseViolation c s) (raiseViolation c s') := by
  simp_all [hostAlike_iff, keepsRecord, keepsAgents]

theorem hostAlike.writeStateReg (i : Fin 16) (v : Word) :
    hostAlike (writeStateReg i v s) (writeStateReg i v s') := by
  simp_all [hostAlike_iff, keepsRecord, keepsAgents]

theorem hostAlike.readOutReg (i : Fin 16) : hostAlike (readOutReg i s) (readOutReg i s') := by
  have ho := h.outGated_eq i
  simp_all [hostAlike_iff, keepsRecord, keepsAgents]

theorem hostAlike.readStatusReg : hostAlike (readStatusReg s) (readStatusReg s') := by
  have hw := h.statusWord_eq
  simp_all [hostAlike_iff, keepsRecord, keepsAgents]

theorem hostAlike.startTransform : hostAlike (startTransform s) (startTransform s') := by
  simp_all [hostAlike_iff, keepsRecord, keepsAgents]

end

/-- An operation that completes in alike states and leaves them alike. -/
def keepsAlike (i : Instr) : Prop :=
  ∀ s s' : State, hostAlike s s' → ∃ t t', exec i s = .next t ∧ exec i s' = .next t' ∧ hostAlike t t'

/-- What holds of the seventeen rows' operations holds of whatever a command word decodes to (30_encoding R83). -/
theorem decodeBus_induction {P : Instr → Prop} (rdState : ∀ i, P (.rdState i)) (wrState : ∀ i v, P (.wrState i v))
    (rdOut : ∀ i, P (.rdOut i)) (wrOut : ∀ i v, P (.wrOut i v)) (rdCtrl : P .rdCtrl) (start : P .start)
    (wrCtrlNop : P .wrCtrlNop) (rdStatus : P .rdStatus) (wrStatus : ∀ v, P (.wrStatus v))
    (rdRsvd : ∀ a, P (.rdRsvd a)) (wrRsvd : ∀ a v, P (.wrRsvd a v)) (w : BitVec 39) : P (decodeBus w) := by
  unfold decodeBus
  split_ifs
  · exact wrState _ _
  · exact rdState _
  · exact wrOut _ _
  · exact rdOut _
  · exact start
  · exact wrCtrlNop
  · exact rdCtrl
  · exact wrStatus _
  · exact rdStatus
  · exact wrRsvd _ _
  · exact rdRsvd _

theorem keepsAlike_decodeBus (w : BitVec 39) : keepsAlike (decodeBus w) :=
  decodeBus_induction (P := keepsAlike)
    (rdState := fun _ _ _ h => ⟨_, _, rfl, rfl, h.S_eq ▸ h.respond _⟩)
    (wrState := fun i v _ _ h => ⟨_, _, rfl, rfl, h.writeStateReg i v⟩)
    (rdOut := fun i _ _ h => ⟨_, _, rfl, rfl, h.readOutReg i⟩)
    (wrOut := fun _ _ _ _ h => ⟨_, _, rfl, rfl, h.raiseViolation .wrReadOnly⟩)
    (rdCtrl := fun _ _ h => ⟨_, _, rfl, rfl, h.respond 0⟩)
    (start := fun _ _ h => ⟨_, _, rfl, rfl, h.startTransform⟩)
    (wrCtrlNop := fun _ _ h => ⟨_, _, rfl, rfl, h⟩)
    (rdStatus := fun _ _ h => ⟨_, _, rfl, rfl, h.readStatusReg⟩)
    (wrStatus := fun _ _ _ h => ⟨_, _, rfl, rfl, h.raiseViolation .wrReadOnly⟩)
    (rdRsvd := fun _ _ _ h => ⟨_, _, rfl, rfl, (h.respond 0).raiseViolation .reservedAddr⟩)
    (wrRsvd := fun _ _ _ _ h => ⟨_, _, rfl, rfl, h.raiseViolation .reservedAddr⟩)
    w

theorem keepsAlike_poll : keepsAlike .poll := by
  intro s s' h
  refine ⟨_, _, exec_poll s, exec_poll s', ?_⟩
  rw [h.DONE_eq]
  split
  · exact h.readStatusReg
  · exact (h.issue [.poll]).readStatusReg

theorem keepsAlike_hostOp (op : HostOp) : keepsAlike op.instr := by
  cases op with
  | command w => exact keepsAlike_decodeBus w
  | loadstate ws => exact fun _ _ h => ⟨_, _, rfl, rfl, (h.issue _).writeStateReg 0 _⟩
  | poll => exact keepsAlike_poll
  | readout => exact fun _ _ h => ⟨_, _, rfl, rfl, (h.issue readoutRest).readOutReg 0⟩
  | runblock => exact fun _ _ h => ⟨_, _, rfl, rfl, (h.issue [.poll, .readout]).startTransform⟩
  | setctr c => exact fun _ _ h => ⟨_, _, rfl, rfl, h.writeStateReg 12 c⟩
  | bswap32 w => exact fun _ _ h => ⟨_, _, rfl, rfl, h.deliver [bswap32 w]⟩

/-- Settles O58: the two states are alike before the operation, and `keepsAlike_hostOp` keeps them so. -/
theorem hiddenStateIsUnobservable : Obligations.HiddenStateIsUnobservable := by
  intro op s w o r ho
  exact keepsAlike_hostOp op s { s with W := w, rnd := r, OUT := o } ⟨rfl, ho⟩

end Sys2Proof.Machine
end

section
/-! PROOFS. 10_state: what the violation record cannot influence. -/

namespace Sys2Proof.Machine

/-- Two states that agree on everything but ERR and CAUSE. -/
def sameButRecord (s s' : State) : Prop :=
  keepsData s s' ∧ keepsSequencer s s' ∧ keepsAgents s s' ∧ s'.responses = s.responses

section
variable {s s' : State} (h : sameButRecord s s')
include h

theorem sameButRecord.S_eq : s'.S = s.S := by
  obtain ⟨⟨hS, _⟩, _⟩ := h
  exact hS

theorem sameButRecord.rnd_eq : s'.rnd = s.rnd := by
  obtain ⟨_, ⟨hr, _⟩, _⟩ := h
  exact hr

theorem sameButRecord.BUSY_eq : s'.BUSY = s.BUSY := by
  obtain ⟨_, ⟨_, hb, _⟩, _⟩ := h
  exact hb

theorem sameButRecord.DONE_eq : s'.DONE = s.DONE := by
  obtain ⟨_, ⟨_, _, hd⟩, _⟩ := h
  exact hd

theorem sameButRecord.entrySelected_eq (k : BitVec 5) : entrySelected k s' = entrySelected k s := by
  rw [entrySelected, entrySelected, h.BUSY_eq, h.rnd_eq]

/-! Every shared update but a STATUS reading keeps such states the same. -/

theorem sameButRecord.respond (v : Word) : sameButRecord (respond v s) (respond v s') := by
  simp_all [sameButRecord, keepsData, keepsSequencer, keepsAgents]

theorem sameButRecord.deliver (vs : List Word) : sameButRecord (deliver vs s) (deliver vs s') := by
  simp_all [sameButRecord, keepsData, keepsSequencer, keepsAgents]

theorem sameButRecord.issue (ops : List HostOp) : sameButRecord (issue ops s) (issue ops s') := by
  simp_all [sameButRecord, keepsData, keepsSequencer, keepsAgents]

theorem sameButRecord.raiseViolation (c : Violation) : sameButRecord (raiseViolation c s) (raiseViolation c s') := by
  simp_all [sameButRecord, keepsData, keepsSequencer, keepsAgents]

theorem sameButRecord.writeStateReg (i : Fin 16) (v : Word) :
    sameButRecord (writeStateReg i v s) (writeStateReg i v s') := by
  simp_all [sameButRecord, keepsData, keepsSequencer, keepsAgents]

theorem sameButRecord.readOutReg (i : Fin 16) : sameButRecord (readOutReg i s) (readOutReg i s') := by
  simp_all [sameButRecord, keepsData, keepsSequencer, keepsAgents, outGated]

theorem sameButRecord.copyState : sameButRecord (copyState s) (copyState s') := by
  simp_all [sameButRecord, keepsData, keepsSequencer, keepsAgents]

theorem sameButRecord.startTransform : sameButRecord (startTransform s) (startTransform s') := by
  simp_all [sameButRecord, keepsData, keepsSequencer, keepsAgents]

theorem sameButRecord.applyRound (f : Block → Block) : sameButRecord (applyRound f s) (applyRound f s') := by
  simp_all [sameButRecord, keepsData, keepsSequencer, keepsAgents]

theorem sameButRecord.finishTransform : sameButRecord (finishTransform s) (finishTransform s') := by
  simp_all [sameButRecord, keepsData, keepsSequencer, keepsAgents]

theorem sameButRecord.resetEngine : sameButRecord (resetEngine s) (resetEngine s') := by
  simp_all [sameButRecord, keepsData, keepsSequencer, keepsAgents]

/-- A STATUS reading returns other words in the two states and is alike in the rest. -/
theorem sameButRecord.readStatusReg : keepsData (readStatusReg s) (readStatusReg s') ∧
    keepsSequencer (readStatusReg s) (readStatusReg s') ∧ keepsAgents (readStatusReg s) (readStatusReg s') := by
  simp_all [sameButRecord, keepsData, keepsSequencer, keepsAgents]

end

/-- Both branches of a choice made alike in the two states. -/
theorem sameButRecord.ite (p : Prop) [Decidable p] {a a' b b' : State} (ha : sameButRecord a a') (hb : sameButRecord b b') :
    sameButRecord (if p then a else b) (if p then a' else b') := by
  split
  · exact ha
  · exact hb

/-- The record has no influence on an operation: where it completes, it completes alike in a state with another record. -/
def ignoresRecord (i : Instr) : Prop :=
  ∀ s s' t : State, sameButRecord s s' → exec i s = .next t →
    ∃ t', exec i s' = .next t' ∧ keepsData t t' ∧ keepsSequencer t t' ∧ keepsAgents t t' ∧
      (i ≠ .rdStatus → i ≠ .poll → t'.responses = t.responses)

/-- An operation that always performs one update ignores the record if that update does. -/
theorem ignoresRecord_of_update {i : Instr} {f : State → State} (run : ∀ s, exec i s = .next (f s))
    (keeps : ∀ s s', sameButRecord s s' → sameButRecord (f s) (f s')) : ignoresRecord i := by
  intro s s' t h hx
  rw [run] at hx
  obtain rfl := Host.Outcome.next.inj hx
  obtain ⟨hd, hs, ha, hr⟩ := keeps s s' h
  exact ⟨f s', run s', hd, hs, ha, fun _ _ => hr⟩

theorem ignoresRecord_rotl32 (v : Word) (n : Nat) : ignoresRecord (.rotl32 v n) := by
  intro s s' t h hx
  rw [exec_rotl32] at hx ⊢
  split at hx
  next hn =>
    obtain rfl := Host.Outcome.next.inj hx
    obtain ⟨hd, hs, ha, hr⟩ := h.deliver [rotl32 v n]
    exact ⟨_, if_pos hn, hd, hs, ha, fun _ _ => hr⟩
  next => cases hx

theorem ignoresRecord_rdStatus : ignoresRecord .rdStatus := by
  intro s s' t h hx
  obtain rfl := Host.Outcome.next.inj hx
  obtain ⟨hd, hs, ha⟩ := h.readStatusReg
  exact ⟨_, rfl, hd, hs, ha, fun hne _ => absurd rfl hne⟩

/-- Whether POLL goes on depends on DONE alone, not on the rest of the STATUS word it reads. -/
theorem ignoresRecord_poll : ignoresRecord .poll := by
  intro s s' t h hx
  rw [exec_poll, ← apply_ite readStatusReg] at hx ⊢
  obtain rfl := Host.Outcome.next.inj hx
  rw [h.DONE_eq]
  obtain ⟨hd, hs, ha⟩ := (sameButRecord.ite (s.DONE = true) h (h.issue [.poll])).readStatusReg
  exact ⟨_, rfl, hd, hs, ha, fun _ hne => absurd rfl hne⟩

theorem exec_ignoresRecord (i : Instr) : ignoresRecord i := by
  cases i with
  | rdState j => exact ignoresRecord_of_update (exec_rdState · j) fun _ _ h => h.S_eq ▸ h.respond _
  | wrState j v => exact ignoresRecord_of_update (exec_wrState · j v) fun _ _ h => h.writeStateReg j v
  | rdOut j => exact ignoresRecord_of_update (exec_rdOut · j) fun _ _ h => h.readOutReg j
  | wrOut | wrStatus => exact ignoresRecord_of_update (fun _ => rfl) fun _ _ h => h.raiseViolation .wrReadOnly
  | rdCtrl => exact ignoresRecord_of_update exec_rdCtrl fun _ _ h => h.respond 0
  | start => exact ignoresRecord_of_update exec_start fun _ _ h => h.startTransform
  | wrCtrlNop => exact ignoresRecord_of_update exec_wrCtrlNop fun _ _ h => h
  | rdStatus => exact ignoresRecord_rdStatus
  | rdRsvd a => exact ignoresRecord_of_update (exec_rdRsvd · a) fun _ _ h => (h.respond 0).raiseViolation .reservedAddr
  | wrRsvd a v => exact ignoresRecord_of_update (exec_wrRsvd · a v) fun _ _ h => h.raiseViolation .reservedAddr
  | colround k =>
    exact ignoresRecord_of_update (exec_colround · k) fun _ _ h => h.entrySelected_eq k ▸ .ite _ (h.applyRound _) h
  | diaground k =>
    exact ignoresRecord_of_update (exec_diaground · k) fun _ _ h => h.entrySelected_eq k ▸ .ite _ (h.applyRound _) h
  | finaladd =>
    exact ignoresRecord_of_update exec_finaladd fun _ _ h => h.entrySelected_eq 20 ▸ .ite _ h.finishTransform h
  | seqRsvd k => exact fun _ _ _ _ hx => by cases hx
  | eRound =>
    refine ignoresRecord_of_update exec_eRound fun s s' h => ?_
    rw [h.BUSY_eq, h.rnd_eq]
    exact .ite _ (.ite _ (h.applyRound _) (h.applyRound _)) h
  | eFinal =>
    refine ignoresRecord_of_update exec_eFinal fun s s' h => ?_
    rw [h.BUSY_eq, h.rnd_eq]
    exact .ite _ h.finishTransform h
  | reset => exact ignoresRecord_of_update exec_reset fun _ _ h => h.resetEngine
  | rotl32 v n => exact ignoresRecord_rotl32 v n
  | add32 | xor32 | qr | round | doubleround | rounds | block | bswap32 =>
    exact ignoresRecord_of_update (fun _ => rfl) fun _ _ h => h.deliver _
  | copy => exact ignoresRecord_of_update exec_copy fun _ _ h => h.copyState
  | loadstate ws => exact ignoresRecord_of_update (exec_loadstate · ws) fun _ _ h => (h.issue _).writeStateReg 0 _
  | poll => exact ignoresRecord_poll
  | readout => exact ignoresRecord_of_update exec_readout fun _ _ h => (h.issue readoutRest).readOutReg 0
  | runblock => exact ignoresRecord_of_update exec_runblock fun _ _ h => (h.issue [.poll, .readout]).startTransform
  | setctr c => exact ignoresRecord_of_update (exec_setctr · c) fun _ _ h => h.writeStateReg 12 c

/-- Settles O23: no operation's update reads ERR or CAUSE but to fill them in and to return STATUS. -/
theorem recordInfluencesNothingElse : Obligations.RecordInfluencesNothingElse := by
  intro i s t e c hx
  exact exec_ignoresRecord i s { s with ERR := e, CAUSE := c } t
    ⟨⟨rfl, rfl, rfl⟩, ⟨rfl, rfl, rfl⟩, ⟨rfl, rfl, rfl, rfl⟩, rfl⟩ hx

end Sys2Proof.Machine
end

section
/-! PROOFS. 10_state: each register's only writers. -/

namespace Sys2Proof.Machine

/-- Once, what an operation can do to the data registers and the sequencer, and which operation does it where (10_state R34). -/
inductive Writes (i : Instr) (s t : State) : Prop where
  | nothing (data : keepsData s t) (seq : keepsSequencer s t)
  | stateWord (idle : s.BUSY = false) (op : (∃ j v, i = .wrState j v) ∨ (∃ ws, i = .loadstate ws) ∨ ∃ c, i = .setctr c)
      (W : t.W = s.W) (OUT : t.OUT = s.OUT) (seq : keepsSequencer s t)
  | start (idle : s.BUSY = false) (op : i = .start ∨ i = .runblock) (S : t.S = s.S) (OUT : t.OUT = s.OUT)
  | copy (op : i = .copy) (S : t.S = s.S) (OUT : t.OUT = s.OUT) (seq : keepsSequencer s t)
  | round (busy : s.BUSY = true) (op : (i = .eRound ∧ s.rnd.toNat < 20) ∨ i = .colround s.rnd ∨ i = .diaground s.rnd)
      (S : t.S = s.S) (OUT : t.OUT = s.OUT)
  | final (busy : s.BUSY = true) (last : s.rnd.toNat = 20) (op : i = .eFinal ∨ i = .finaladd) (S : t.S = s.S) (W : t.W = s.W)
  | reset (op : i = .reset)

theorem Writes.of_respond {i : Instr} (v : Word) (s : State) : Writes i s (respond v s) :=
  .nothing ⟨rfl, rfl, rfl⟩ ⟨rfl, rfl, rfl⟩

theorem Writes.of_deliver {i : Instr} (vs : List Word) (s : State) : Writes i s (deliver vs s) :=
  .nothing ⟨rfl, rfl, rfl⟩ ⟨rfl, rfl, rfl⟩

theorem Writes.of_raiseViolation {i : Instr} (c : Violation) (s : State) : Writes i s (raiseViolation c s) :=
  .nothing (by simp [keepsData]) (by simp [keepsSequencer])

theorem Writes.of_readOutReg {i : Instr} (j : Fin 16) (ops : List HostOp) (s : State) :
    Writes i s (readOutReg j (issue ops s)) :=
  .nothing (by simp [keepsData]) (by simp [keepsSequencer])

theorem Writes.of_writeStateReg {i : Instr} (j : Fin 16) (v : Word) (ops : List HostOp) (s : State)
    (op : (∃ j v, i = .wrState j v) ∨ (∃ ws, i = .loadstate ws) ∨ ∃ c, i = .setctr c) :
    Writes i s (writeStateReg j v (issue ops s)) := by
  obtain ⟨hb, e⟩ | ⟨_, e⟩ := writeStateReg_cases j v (issue ops s) <;> rw [e]
  · exact .stateWord hb op rfl rfl ⟨rfl, rfl, rfl⟩
  · exact .nothing (by simp [keepsData]) (by simp [keepsSequencer])

theorem Writes.of_startTransform {i : Instr} (ops : List HostOp) (s : State) (op : i = .start ∨ i = .runblock) :
    Writes i s (startTransform (issue ops s)) := by
  obtain ⟨hb, e⟩ | ⟨_, e⟩ := startTransform_cases (issue ops s) <;> rw [e]
  · exact .start hb op rfl rfl
  · exact .nothing (by simp [keepsData]) (by simp [keepsSequencer])

theorem entrySelected_iff (k : BitVec 5) (s : State) : entrySelected k s = true ↔ s.BUSY = true ∧ s.rnd = k := by
  simp [entrySelected]

theorem Writes.of_disabled {i : Instr} (s : State) : Writes i s s := .nothing ⟨rfl, rfl, rfl⟩ ⟨rfl, rfl, rfl⟩

/-- An operation that makes its change only under a condition. -/
theorem Writes.ite {i : Instr} {s t : State} {p : Prop} [Decidable p] (h : p → Writes i s t) :
    Writes i s (if p then t else s) := by
  split
  next hp => exact h hp
  next => exact .of_disabled s

theorem Writes.of_run {i : Instr} {s t u : State} (run : exec i s = .next u) (h : exec i s = .next t)
    (hw : Writes i s u) : Writes i s t :=
  Host.Outcome.next.inj (run.symm.trans h) ▸ hw

theorem writes_of_exec {i : Instr} {s t : State} (h : exec i s = .next t) : Writes i s t := by
  cases i with
  | rdState | rdCtrl | rdStatus => exact .of_run rfl h <| .of_respond _ s
  | wrState j v => exact .of_run rfl h <| .of_writeStateReg j v [] s (.inl ⟨j, v, rfl⟩)
  | rdOut j => exact .of_run rfl h <| .of_readOutReg j [] s
  | wrOut | wrStatus | wrRsvd => exact .of_run rfl h <| .of_raiseViolation _ s
  | start => exact .of_run rfl h <| .of_startTransform [] s (.inl rfl)
  | wrCtrlNop => exact .of_run rfl h <| .of_disabled s
  | rdRsvd => exact .of_run rfl h <| .nothing (by simp [keepsData]) (by simp [keepsSequencer])
  | colround k =>
    refine .of_run (exec_colround s k) h <| .ite fun hk => ?_
    obtain ⟨hb, rfl⟩ := (entrySelected_iff k s).mp hk
    exact .round hb (.inr (.inl rfl)) (applyRound_S s _) (applyRound_OUT s _)
  | diaground k =>
    refine .of_run (exec_diaground s k) h <| .ite fun hk => ?_
    obtain ⟨hb, rfl⟩ := (entrySelected_iff k s).mp hk
    exact .round hb (.inr (.inr rfl)) (applyRound_S s _) (applyRound_OUT s _)
  | finaladd =>
    refine .of_run (exec_finaladd s) h <| .ite fun hk => ?_
    obtain ⟨hb, hr⟩ := (entrySelected_iff 20 s).mp hk
    exact .final hb (hr ▸ rfl) (.inr rfl) (finishTransform_S s) (finishTransform_W s)
  | seqRsvd => cases h
  | eRound =>
    refine .of_run (exec_eRound s) h <| .ite fun hk => ?_
    obtain ⟨hb, hr⟩ := Bool.and_eq_true_iff.mp hk
    have op : Instr.eRound = .eRound ∧ s.rnd.toNat < 20 := ⟨rfl, of_decide_eq_true hr⟩
    split
    · exact .round hb (.inl op) (applyRound_S s _) (applyRound_OUT s _)
    · exact .round hb (.inl op) (applyRound_S s _) (applyRound_OUT s _)
  | eFinal =>
    refine .of_run (exec_eFinal s) h <| .ite fun hk => ?_
    obtain ⟨hb, hr⟩ := Bool.and_eq_true_iff.mp hk
    exact .final hb (of_decide_eq_true hr) (.inl rfl) (finishTransform_S s) (finishTransform_W s)
  | reset => exact .reset rfl
  | rotl32 v n =>
    by_cases hn : 0 < n ∧ n < 32
    · exact .of_run ((exec_rotl32 s v n).trans (if_pos hn)) h <| .of_deliver _ s
    · rw [exec_rotl32, if_neg hn] at h
      cases h
  | add32 | xor32 | qr | round | doubleround | rounds | block | bswap32 =>
    exact .of_run rfl h <| .of_deliver _ s
  | copy => exact .of_run rfl h <| .copy rfl rfl rfl ⟨rfl, rfl, rfl⟩
  | loadstate ws => exact .of_run rfl h <| .of_writeStateReg 0 _ _ s (.inr (.inl ⟨ws, rfl⟩))
  | poll =>
    refine .of_run (exec_poll s) h ?_
    split
    · exact .of_respond _ s
    · exact .nothing ⟨rfl, rfl, rfl⟩ ⟨rfl, rfl, rfl⟩
  | readout => exact .of_run rfl h <| .of_readOutReg 0 readoutRest s
  | runblock => exact .of_run rfl h <| .of_startTransform [.poll, .readout] s (.inr rfl)
  | setctr c => exact .of_run rfl h <| .of_writeStateReg 12 c [] s (.inr (.inr ⟨c, rfl⟩))

/-- Settles O57: each clause is the contrapositive of what each kind of operation leaves unchanged. -/
theorem registersHaveTheirOnlyWriters : Obligations.RegistersHaveTheirOnlyWriters := by
  intro i s t h hne
  cases writes_of_exec h with
  | nothing data seq =>
    obtain ⟨hS, hW, hO⟩ := data
    exact ⟨absurd hS, absurd hO, absurd hW, absurd seq⟩
  | stateWord idle op hW hO seq => exact ⟨fun _ => ⟨idle, op⟩, absurd hO, absurd hW, absurd seq⟩
  | start idle op hS hO => exact ⟨absurd hS, absurd hO, fun _ => .inl ⟨idle, op⟩, fun _ => .inl ⟨idle, op⟩⟩
  | copy op hS hO seq => exact ⟨absurd hS, absurd hO, fun _ => .inr (.inl op), absurd seq⟩
  | round busy op hS hO =>
    refine ⟨absurd hS, absurd hO, fun _ => .inr (.inr ⟨busy, op⟩), fun _ => .inr ⟨busy, ?_⟩⟩
    exact op.imp_right (Or.imp_right .inl)
  | final busy last op hS hW =>
    exact ⟨absurd hS, fun _ => ⟨busy, last, op⟩, absurd hW, fun _ => .inr ⟨busy, .inr (.inr (.inr ⟨last, op⟩))⟩⟩
  | reset op => exact absurd op hne

end Sys2Proof.Machine
end

section
/-! PROOFS. 10_state: the byte order of the host's literals, of the state it builds and of the keystream. -/

namespace Sys2Proof.Machine

end Sys2Proof.Machine
end

section
/-! PROOFS. 10_state: the byte order of the host's literals, of the state it builds and of the keystream. -/

namespace Sys2Proof.Machine

/-- Bit `i` of a word is a bit of its wire byte `i / 8` (20_memory R52). -/
theorem wireWord_getLsbD (p0 p1 p2 p3 : Byte) (i : Nat) :
    (wireWord p0 p1 p2 p3).getLsbD i =
      if i < 8 then p0.getLsbD i else if i - 8 < 8 then p1.getLsbD (i - 8)
      else if i - 8 - 8 < 8 then p2.getLsbD (i - 8 - 8) else p3.getLsbD (i - 8 - 8 - 8) := by
  have h : (wireWord p0 p1 p2 p3).getLsbD i = (p3 ++ p2 ++ p1 ++ p0 : BitVec (8 + 8 + 8 + 8)).getLsbD i := rfl
  simp only [h, BitVec.getLsbD_append]

/-- The wire bytes of a word, each as a slice of it. -/
theorem wireWord_bytes (p0 p1 p2 p3 : Byte) :
    (wireWord p0 p1 p2 p3).extractLsb' 0 8 = p0 ∧ (wireWord p0 p1 p2 p3).extractLsb' 8 8 = p1 ∧
    (wireWord p0 p1 p2 p3).extractLsb' 16 8 = p2 ∧ (wireWord p0 p1 p2 p3).extractLsb' 24 8 = p3 := by
  have slice : ∀ (n : Nat) (p : Byte), (∀ i < 8, (wireWord p0 p1 p2 p3).getLsbD (n + i) = p.getLsbD i) →
      (wireWord p0 p1 p2 p3).extractLsb' n 8 = p := fun n p h =>
    BitVec.eq_of_getLsbD_eq fun i hi => by simp [hi, h i hi]
  refine ⟨slice 0 _ fun i hi => ?_, slice 8 _ fun i hi => ?_, slice 16 _ fun i hi => ?_, slice 24 _ fun i hi => ?_⟩ <;>
    rw [wireWord_getLsbD]
  · simp [hi]
  · simp [hi]
  · rw [if_neg (by omega), if_neg (by omega), if_pos (by omega), show 16 + i - 8 - 8 = i by omega]
  · rw [if_neg (by omega), if_neg (by omega), if_neg (by omega), show 24 + i - 8 - 8 - 8 = i by omega]

/-- The byte swap turns the wire bytes of a word around (44_endianness R180). -/
theorem bswap32_eq_wireWord (w : Word) :
    bswap32 w = wireWord (w.extractLsb' 24 8) (w.extractLsb' 16 8) (w.extractLsb' 8 8) (w.extractLsb' 0 8) := by
  apply BitVec.eq_of_getLsbD_eq
  intro i hi
  rw [wireWord_getLsbD]
  interval_cases i <;> simp [bswap32]

/-- A literal in reading order is the word of the same bytes turned around (44_endianness R184). -/
theorem bswap32_literalWord (p0 p1 p2 p3 : Byte) : bswap32 (literalWord p0 p1 p2 p3) = wireWord p0 p1 p2 p3 := by
  have hrev : literalWord p0 p1 p2 p3 = wireWord p3 p2 p1 p0 := rfl
  obtain ⟨h0, h1, h2, h3⟩ := wireWord_bytes p3 p2 p1 p0
  rw [hrev, bswap32_eq_wireWord, h0, h1, h2, h3]

/-- Word `i` of a built state (44_endianness R183). -/
theorem initialState_get (L : Vector Word 12) (i : Fin 16) :
    (initialState L)[i] = if h : i.val < 4 then chachaConst[i.val] else bswap32 L[i.val - 4] :=
  tabulate_get _ i

theorem initialState_const (L : Vector Word 12) (i : Fin 4) : (initialState L)[i.val] = chachaConst[i] := by
  simpa using initialState_get L (i.castLE (by decide))

theorem initialState_literal (L : Vector Word 12) (i : Fin 12) : (initialState L)[4 + i.val] = bswap32 L[i] := by
  simpa using initialState_get L (i.natAdd 4)

/-- The four bytes of word `i`, among the bytes of a list of words. -/
theorem getElem?_flatMap_bytes (ws : List Word) (i k : Nat) (hk : k < 4) :
    (ws.flatMap fun w => [w.extractLsb' 0 8, w.extractLsb' 8 8, w.extractLsb' 16 8, w.extractLsb' 24 8])[4 * i + k]? =
      ws[i]?.map fun w => w.extractLsb' (8 * k) 8 := by
  induction ws generalizing i with
  | nil => simp
  | cons w ws ih =>
    cases i with
    | zero => interval_cases k <;> rfl
    | succ i =>
      rw [show 4 * (i + 1) + k = 4 * i + k + 4 by omega]
      exact ih i

theorem keystream_getElem? (o : Block) (i : Fin 16) (k : Fin 4) :
    (keystream o)[4 * i.val + k.val]? = some (keystreamByte o i k) := by
  rw [keystream, getElem?_flatMap_bytes o.toList i.val k.val k.isLt]
  simp [keystreamByte]

/-- Settles O45: the literals by their bytes, the built state word by word, the keystream by induction on its words. -/
theorem hostSideByteOrder : Obligations.HostSideByteOrder :=
  ⟨bswap32_literalWord, fun L => ⟨initialState_const L 0, initialState_const L 1, initialState_const L 2,
    initialState_const L 3, initialState_literal L⟩, keystream_getElem?⟩

end Sys2Proof.Machine
end

section
/-! PROOFS. 20_memory: what each turn of a step runs, progress of the machine, and engines side by side. -/

namespace Sys2Proof.Machine

/-! ### What each agent's turn runs -/

variable (s : State)

theorem hostTurn_of_nil (h : s.program = []) : hostTurn s = .next s := by
  rw [hostTurn, h]

theorem hostTurn_of_cons {op : HostOp} {rest : List HostOp} (h : s.program = op :: rest) :
    hostTurn s = exec op.instr { s with program := rest } := by
  rw [hostTurn, h]

theorem engineTurn_of_busy (h : s.BUSY = true) : engineTurn s = exec (decodeSeq s.rnd) s := by
  rw [engineTurn, if_pos h]

theorem engineTurn_of_idle (h : s.BUSY = false) : engineTurn s = .next s := by
  rw [engineTurn, h, if_neg Bool.false_ne_true]

/-- A step on a HOST turn runs the next operation of the program. -/
theorem step_of_host_turn {us : List Turn} {op : HostOp} {rest : List HostOp} (hu : s.turns = .host :: us)
    (hp : s.program = op :: rest) : step s = exec op.instr { s with program := rest, turns := us } :=
  (step_of_turn s .host us hu).trans (hostTurn_of_cons { s with turns := us } hp)

/-- Settles O9: a HOST turn is `hostTurn`, which takes the operation off the program and runs it. -/
theorem hostTurnRunsTheDecodedCommand : Obligations.HostTurnRunsTheDecodedCommand := by
  intro s us rest hu
  refine ⟨fun w hp => step_of_host_turn s hu hp, fun op hp => step_of_host_turn s hu hp, fun hp => ?_⟩
  exact (step_of_turn s .host us hu).trans (hostTurn_of_nil { s with turns := us } hp)

/-- With no turn laid down a step is the ENGINE's turn while a transform runs. -/
theorem step_of_no_turn_busy (hu : s.turns = []) (hb : s.BUSY = true) : step s = engineTurn s := by
  rw [step_of_no_turn s hu, if_pos hb, takeTurn]

/-- With no turn laid down a step is the HOST's turn while no transform runs. -/
theorem step_of_no_turn_idle (hu : s.turns = []) (hb : s.BUSY = false) : step s = hostTurn s := by
  rw [step_of_no_turn s hu, hb, if_neg Bool.false_ne_true, takeTurn]

/-- Settles O10: the turn laid down, or the default for none, selects the agent's turn, and each has its equation. -/
theorem engineAndResetTurnsRunTheirSteps : Obligations.EngineAndResetTurnsRunTheirSteps := by
  refine ⟨fun s us hu => ⟨fun hb => ?_, fun hb => ?_⟩, fun s us hu => step_of_turn s .reset us hu, fun s hu => ⟨?_, ?_, ?_⟩⟩
  · exact (step_of_turn s .engine us hu).trans (engineTurn_of_busy { s with turns := us } hb)
  · exact (step_of_turn s .engine us hu).trans (engineTurn_of_idle { s with turns := us } hb)
  · exact fun hb => (step_of_no_turn_busy s hu hb).trans (engineTurn_of_busy s hb)
  · exact fun hb hp => (step_of_no_turn_idle s hu hb).trans (hostTurn_of_nil s hp)
  · exact fun op rest hb hp => (step_of_no_turn_idle s hu hb).trans (hostTurn_of_cons s hp)

/-! ### Progress -/

variable {s}

/-- The only stop a step has is the ENGINE's at an index above 20, which the control invariant excludes. -/
theorem ControlInv.canStep (hs : ControlInv s) : canStep s := by
  obtain e | ⟨_, _, _, t, _, e, _⟩ | ⟨_, _, _, e⟩ | ⟨_, _, _, e⟩ | ⟨_, _, stuck, _⟩ | ⟨_, e⟩ := step_cases s
  · exact ⟨_, e⟩
  · exact ⟨t, e⟩
  · exact ⟨_, e⟩
  · exact ⟨_, e⟩
  · exact absurd hs.rndRange (Nat.not_le.mpr stuck)
  · exact ⟨_, e⟩

/-- A run whose first step is known goes on from the state that step answers. -/
theorem runFor_of_step {t : State} (n : Nat) (h : step s = .next t) : runFor (n + 1) s = runFor n t := by
  rw [runFor, h]

/-- Settles O54, by induction on the number of steps: a state that meets the invariant has a step, and that step keeps it. -/
theorem runsNeverStop : Obligations.RunsNeverStop := by
  intro n
  induction n with
  | zero => exact fun s hs => ⟨s, rfl, hs⟩
  | succ n ih =>
    intro s hs
    obtain ⟨u, hu⟩ := hs.canStep
    rw [runFor_of_step n hu]
    exact ih u (everyStepKeepsTheControlInvariant s u hs hu)

/-! ### Engines side by side -/

/-- A step of engine `k` is that engine's own step, stored at `k`. -/
theorem stepEngine_eq_next {n : Nat} {k : Fin n} {es fs : Vector State n} (h : stepEngine k es = .next fs) :
    ∃ t, step es[k] = .next t ∧ fs = es.set k t := by
  unfold stepEngine at h
  split at h
  next t ht => exact ⟨t, ht, (Host.Outcome.next.inj h).symm⟩
  next => cases h
  next => cases h

/-- Settles O60: storing at `k` is read back at `k` and seen at no other index. -/
theorem enginesShareNothing : Obligations.EnginesShareNothing := by
  intro n k es fs h
  obtain ⟨t, ht, rfl⟩ := stepEngine_eq_next h
  refine ⟨?_, fun j hj => ?_⟩
  · simpa using ht
  · exact Vector.getElem_set_ne k.isLt j.isLt (Fin.val_ne_of_ne hj.symm)

end Sys2Proof.Machine
end

section
/-! PROOFS. 20_memory: the register window, what a read of it answers and which commands change what it shows. -/

namespace Sys2Proof.Machine

/-! ### The window, region by region (R51, R56) -/

variable (s : State)

@[simp] theorem readValue_stateAddr (i : Fin 16) : readValue (stateAddr i) s = s.S[i] := by
  simp [readValue]

@[simp] theorem readValue_outAddr (i : Fin 16) : readValue (outAddr i) s = outGated i s := by
  simp [readValue]

@[simp] theorem readValue_ctrl : readValue 0x20#6 s = 0 := by
  simp [readValue, addrRegion]

@[simp] theorem readValue_status : readValue 0x21#6 s = statusWord s := by
  simp [readValue, addrRegion]

theorem readValue_reserved {a : BitVec 6} (h : 0x22 ≤ a.toNat) : readValue a s = 0 := by
  obtain ⟨h0, h1, _, h21⟩ := reserved_addr a h
  simp_all [readValue]

@[simp] theorem readViolation_stateAddr (i : Fin 16) : readViolation (stateAddr i) s = none := by
  simp [readViolation]

@[simp] theorem readViolation_outAddr (i : Fin 16) :
    readViolation (outAddr i) s = if s.DONE then none else some .rdOutNotDone := by
  simp [readViolation]

@[simp] theorem readViolation_ctrl : readViolation 0x20#6 s = none := by
  simp [readViolation, addrRegion]

@[simp] theorem readViolation_status : readViolation 0x21#6 s = none := by
  simp [readViolation, addrRegion]

theorem readViolation_reserved {a : BitVec 6} (h : 0x22 ≤ a.toNat) : readViolation a s = some .reservedAddr := by
  obtain ⟨h0, h1, h20, h21⟩ := reserved_addr a h
  simp_all [readViolation]

/-! ### MemRead -/

/-- A read command answers what the window shows and records the violation its address has, if any. -/
theorem memRead_eq (a : BitVec 6) :
    memRead a 1 s = .next ((readViolation a s).elim (respond (readValue a s) s)
      (raiseViolation · (respond (readValue a s) s))) := by
  rw [memRead, if_pos rfl]
  obtain ⟨i, rfl⟩ | ⟨i, rfl⟩ | rfl | rfl | h := addr_cases a
  · rw [decodeBus_state]
    simp
  · rw [decodeBus_out, readViolation_outAddr, readValue_outAddr, outGated]
    cases hd : s.DONE <;> simp [readOutReg, hd]
  · rw [decodeBus_ctrl]
    simp
  · rw [decodeBus_status]
    simp [readStatusReg]
  · rw [decodeBus_reserved false a 0 h, readViolation_reserved s h, readValue_reserved s h]
    simp

/-- Settles O26: each clause is what the shared updates of `memRead_eq` do to a field. -/
theorem memReadReturnsTheWindow : Obligations.MemReadReturnsTheWindow := by
  intro a s
  refine ⟨⟨_, memRead_eq s a, ?_⟩, fun n hn => if_neg hn, fun n v hn => if_neg hn⟩
  cases readViolation a s with
  | none => exact ⟨rfl, ⟨rfl, rfl, rfl⟩, ⟨rfl, rfl, rfl⟩, ⟨rfl, rfl, rfl, rfl⟩, fun _ => ⟨rfl, rfl⟩, nofun⟩
  | some c =>
    refine ⟨by simp [received], by simp [keepsData], by simp [keepsSequencer], by simp [keepsAgents], nofun, ?_⟩
    rintro _ ⟨⟩
    simp [recordsViolation]

/-! ### What the window depends on -/

variable {s} {t : State}

/-- But for STATUS the window shows the data registers and DONE. -/
theorem readValue_eq_of_keeps (hd : keepsData s t) (hs : keepsSequencer s t) {a : BitVec 6} (ha : a ≠ 0x21) :
    readValue a t = readValue a s := by
  obtain ⟨hS, _, hO⟩ := hd
  obtain ⟨_, _, hdone⟩ := hs
  obtain ⟨i, rfl⟩ | ⟨i, rfl⟩ | rfl | rfl | h := addr_cases a
  · simp [hS]
  · simp [outGated, hO, hdone]
  · simp
  · exact absurd rfl ha
  · rw [readValue_reserved t h, readValue_reserved s h]

/-- STATUS shows the flags and the record. -/
theorem readStatus_eq_of_keeps (hs : keepsSequencer s t) (hr : keepsRecord s t) :
    readValue 0x21 t = readValue 0x21 s := by
  obtain ⟨_, hb, hd⟩ := hs
  obtain ⟨he, hc⟩ := hr
  simp [statusWord, hb, hd, he, hc]

theorem readValue_eq_of_keepsEngine (h : keepsEngine s t) (a : BitVec 6) : readValue a t = readValue a s := by
  obtain ⟨hd, hs, hr⟩ := h
  by_cases ha : a = 0x21
  · rw [ha, readStatus_eq_of_keeps hs hr]
  · exact readValue_eq_of_keeps hd hs ha

/-! ### Commands that store nothing -/

theorem keepsEngine_refl (s : State) : keepsEngine s s := ⟨⟨rfl, rfl, rfl⟩, ⟨rfl, rfl, rfl⟩, rfl, rfl⟩

theorem keepsEngine_respond (v : Word) (s : State) : keepsEngine s (respond v s) :=
  ⟨⟨rfl, rfl, rfl⟩, ⟨rfl, rfl, rfl⟩, rfl, rfl⟩

/-- Of the engine a step from `s` to `t` changes at most the record, by a violation. -/
structure OnlyRecords (s t : State) : Prop where
  data : keepsData s t
  seq : keepsSequencer s t
  record : recordStep s t

theorem OnlyRecords.of_keepsEngine (h : keepsEngine s t) : OnlyRecords s t := by
  obtain ⟨hd, hs, hr⟩ := h
  exact ⟨hd, hs, .inl hr⟩

theorem OnlyRecords.of_raiseViolation (c : Violation) (h : keepsEngine s t) : OnlyRecords s (raiseViolation c t) := by
  obtain ⟨hd, hs, he, hc⟩ := h
  refine ⟨?_, ?_, .inr ⟨c, ?_⟩⟩
  · simpa [keepsData] using hd
  · simpa [keepsSequencer] using hs
  · simp [he, hc]

/-- While a violation is recorded the first cause is kept (60_exceptions R221). -/
theorem keepsRecord_of_recordStep (h : recordStep s t) (he : s.ERR = true) : keepsRecord s t := by
  obtain hr | ⟨c, he', hc⟩ := h
  · exact hr
  · exact ⟨he'.trans he.symm, by rw [hc, he, cond_true]⟩

/-- Such a step can be seen in the window at STATUS only, and only where no violation was recorded before. -/
theorem OnlyRecords.window (h : OnlyRecords s t) :
    (∀ a, a ≠ 0x21 → readValue a t = readValue a s) ∧ (s.ERR = true → readValue 0x21 t = readValue 0x21 s) :=
  ⟨fun _ ha => readValue_eq_of_keeps h.data h.seq ha,
    fun he => readStatus_eq_of_keeps h.seq (keepsRecord_of_recordStep h.record he)⟩

theorem keepsEngine_readOutReg (i : Fin 16) (h : s.DONE = true) : keepsEngine s (readOutReg i s) := by
  rw [readOutReg, if_pos h]
  exact keepsEngine_respond _ s

theorem onlyRecords_readOutReg (i : Fin 16) (s : State) : OnlyRecords s (readOutReg i s) := by
  obtain ⟨_, e⟩ | ⟨_, e⟩ := readOutReg_cases i s <;> rw [e]
  · exact .of_keepsEngine (keepsEngine_respond _ s)
  · exact .of_raiseViolation _ (keepsEngine_respond 0 s)

/-- Settles O25: the first four commands change nothing the window shows, the other five at most record a violation. -/
theorem storelessCommandsKeepTheWindow : Obligations.StorelessCommandsKeepTheWindow := by
  intro i s t h
  refine ⟨fun hi => readValue_eq_of_keepsEngine ?_, fun hi => OnlyRecords.window ?_, fun hi hd => readValue_eq_of_keepsEngine ?_⟩
  · obtain ⟨j, rfl⟩ | rfl | rfl | rfl := hi <;> obtain rfl := Host.Outcome.next.inj h
    · exact keepsEngine_respond _ s
    · exact keepsEngine_refl s
    · exact keepsEngine_respond 0 s
    · exact keepsEngine_respond _ s
  · obtain ⟨j, rfl⟩ | ⟨j, v, rfl⟩ | ⟨v, rfl⟩ | ⟨a, rfl⟩ | ⟨a, v, rfl⟩ := hi <;> obtain rfl := Host.Outcome.next.inj h
    · exact onlyRecords_readOutReg j s
    · exact .of_raiseViolation _ (keepsEngine_refl s)
    · exact .of_raiseViolation _ (keepsEngine_refl s)
    · exact .of_raiseViolation _ (keepsEngine_respond 0 s)
    · exact .of_raiseViolation _ (keepsEngine_refl s)
  · obtain ⟨j, rfl⟩ := hi
    obtain rfl := Host.Outcome.next.inj h
    exact keepsEngine_readOutReg j hd

/-! ### WR_STATE -/

theorem stateAddr_ne_status (i : Fin 16) : stateAddr i ≠ 0x21 := by
  revert i
  decide

/-- A stored word is seen at its own address only. -/
theorem readValue_set_of_ne (i : Fin 16) (v : Word) (s : State) {a : BitVec 6} (ha : a ≠ stateAddr i) :
    readValue a { s with S := s.S.set i v } = readValue a s := by
  obtain ⟨j, rfl⟩ | ⟨j, rfl⟩ | rfl | rfl | h := addr_cases a
  · have hj : j ≠ i := fun e => ha (congrArg stateAddr e)
    rw [readValue_stateAddr, readValue_stateAddr, set_get, if_neg hj]
  · simp [outGated]
  · simp
  · simp [statusWord]
  · rw [readValue_reserved _ h, readValue_reserved _ h]

/-- Settles O24: an accepted write is read back at its own address only; a dropped one at most records a violation. -/
theorem wrStateWritesOneAddress : Obligations.WrStateWritesOneAddress := by
  intro i v s t h
  obtain rfl := Host.Outcome.next.inj h
  obtain ⟨hb, e⟩ | ⟨hb, e⟩ := writeStateReg_cases i v s <;> rw [e]
  · refine ⟨fun _ => ?_, by simp [hb], fun a ha _ => readValue_set_of_ne i v s ha, fun _ => ?_⟩
    · rw [readValue_stateAddr, set_get, if_pos rfl]
    · exact readValue_set_of_ne i v s (stateAddr_ne_status i).symm
  · obtain ⟨hwindow, hstatus⟩ := (OnlyRecords.of_raiseViolation .wrStateBusy (keepsEngine_refl s)).window
    refine ⟨by simp [hb], fun _ => hwindow _ (stateAddr_ne_status i), fun a _ ha => hwindow a ha, fun h => ?_⟩
    exact hstatus (h.resolve_left (by simp [hb]))

end Sys2Proof.Machine
end

section
/-! PROOFS. 20_memory: the program P5, a write that races with the transform. -/

namespace Sys2Proof.Machine

/-! ### Turns laid down for the ENGINE alone -/

theorem nextTurn_of_cons {s : State} {u : Turn} {us : List Turn} (h : s.turns = u :: us) : nextTurn s = u := by
  rw [nextTurn, h]

theorem step_of_engine_round {s : State} (hu : nextTurn s = .engine) (hb : s.BUSY = true) (lt : s.rnd.toNat < 20) :
    step s = .next (applyRound (roundFn s.rnd.toNat) (popTurn s)) := by
  rw [step, hu, takeTurn]
  obtain ⟨_, e⟩ | ⟨h20, _⟩ | ⟨stuck, _⟩ := engineTurn_cases (popTurn s) hb
  · exact e
  · exact absurd h20 lt.ne
  · exact absurd stuck lt.le.not_gt

theorem step_of_engine_final {s : State} (hu : nextTurn s = .engine) (hb : s.BUSY = true) (h20 : s.rnd.toNat = 20) :
    step s = .next (finishTransform (popTurn s)) := by
  rw [step, hu, takeTurn]
  obtain ⟨lt, _⟩ | ⟨_, e⟩ | ⟨stuck, _⟩ := engineTurn_cases (popTurn s) hb
  · exact absurd h20 lt.ne
  · exact e
  · exact absurd h20 stuck.ne'

/-- From `s` the transform of `X` has run to its end in `t`, the HOST having done nothing meanwhile. -/
structure FinishesTo (X : Block) (s t : State) : Prop where
  transform : TransformOf X t
  finished : isFinished t
  stateRegs : t.S = X
  record : keepsRecord s t
  program : t.program = s.program

theorem FinishesTo.output {X : Block} {s t : State} (h : FinishesTo X s t) : t.OUT = blockFn X := by
  obtain ⟨_, hdone⟩ := h.finished
  obtain ⟨hout, _⟩ := h.transform.output hdone
  exact hout

/-- A running transform finishes in the ENGINE turns its counter has still to go through, one more than the rounds left. -/
theorem runFor_engine_turns {X : Block} (k : Nat) {us : List Turn} {s : State} (hs : TransformOf X s) (hb : s.BUSY = true)
    (hk : s.rnd.toNat + k = 20) (hu : s.turns = List.replicate (k + 1) .engine ++ us) :
    ∃ t, runFor (k + 1) s = .next t ∧ t.turns = us ∧ FinishesTo X s t := by
  induction k generalizing s with
  | zero =>
    refine ⟨_, runFor_of_step 0 (step_of_engine_final (nextTurn_of_cons hu) hb hk), congrArg List.tail hu, ?_⟩
    obtain ⟨hS, _⟩ := hs.locked hb
    exact ⟨hs.of_popTurn.of_finishTransform hb hk, ⟨rfl, rfl⟩, hS, ⟨rfl, rfl⟩, rfl⟩
  | succ k ih =>
    have lt : s.rnd.toNat < 20 := by omega
    rw [runFor_of_step (k + 1) (step_of_engine_round (nextTurn_of_cons hu) hb lt)]
    have hr : (s.rnd + 1).toNat + k = 20 := by
      rw [rnd_succ s.rnd lt]
      omega
    obtain ⟨t, hrun, hturns, ht⟩ := ih (hs.of_popTurn.of_applyRound hb lt) hb hr (congrArg List.tail hu)
    exact ⟨t, hrun, hturns, ht.transform, ht.finished, ht.stateRegs, ht.record, ht.program⟩

/-! ### The program P5 of 95_test_vectors -/

/-- A command word on a HOST turn is the operation it decodes to. -/
theorem step_of_command {s : State} {us : List Turn} {w : BitVec 39} {rest : List HostOp} {i : Instr}
    (hu : s.turns = .host :: us) (hp : s.program = .command w :: rest) (hw : decodeBus w = i) :
    step s = exec i { s with program := rest, turns := us } := by
  rw [step_of_host_turn s hu hp, HostOp.instr, hw]

/-- The transform of `X` has been started and the ENGINE has taken no step of it. -/
structure StartedOn (X : Block) (s : State) : Prop where
  transform : TransformOf X s
  busy : s.BUSY = true
  rnd : s.rnd = 0

theorem StartedOn.finishes {X : Block} {s : State} (h : StartedOn X s) {us : List Turn}
    (hu : s.turns = List.replicate 21 .engine ++ us) :
    ∃ t, runFor 21 s = .next t ∧ t.turns = us ∧ FinishesTo X s t :=
  runFor_engine_turns 20 h.transform h.busy (by rw [h.rnd]; rfl) hu

section
variable {s : State} {us : List Turn} {rest : List HostOp} {w : BitVec 39}
  (hu : s.turns = .host :: us) (hp : s.program = .command w :: rest)
include hu hp

/-- START on a HOST turn, accepted. -/
theorem step_start (hw : decodeBus w = .start) (hb : s.BUSY = false) :
    ∃ t, step s = .next t ∧ StartedOn s.S t ∧ keepsRecord s t ∧ t.program = rest ∧ t.turns = us := by
  refine ⟨_, (step_of_command hu hp hw).trans (exec_start _),
    ⟨.of_startTransform { s with program := rest, turns := us } hb, ?_, ?_⟩, ?_, ?_, ?_⟩
  · simp
  · simp [hb]
  · simp [keepsRecord, hb]
  · simp
  · simp

/-- A write to STATE[i] on a HOST turn before the ENGINE's first step: dropped with violation 1. -/
theorem step_dropped_write {X : Block} {i : Fin 16} {v : Word} (hw : decodeBus w = .wrState i v) (hs : StartedOn X s) :
    ∃ t, step s = .next t ∧ StartedOn X t ∧ recordsViolation 1 s t ∧ t.program = rest ∧ t.turns = us := by
  obtain ⟨htransform, hb, hr⟩ := hs
  refine ⟨_, (step_of_command hu hp hw).trans (exec_wrState _ i v), ⟨?_, ?_, ?_⟩, ?_, ?_, ?_⟩
  · have hagents : TransformOf X { s with program := rest, turns := us } :=
      ⟨htransform.phase, htransform.locked, htransform.output⟩
    exact hagents.of_hostEffect (hostEffect_write i v [] _) (by simp)
  · simpa using hb
  · simpa using hr
  · simp [recordsViolation, hb]
  · simp
  · simp

/-- A write to STATE[i] on a HOST turn while no transform runs: stored. -/
theorem step_stored_write {i : Fin 16} {v : Word} (hw : decodeBus w = .wrState i v) (hb : s.BUSY = false) :
    step s = .next { s with S := s.S.set i v, program := rest, turns := us } := by
  rw [step_of_command hu hp hw, exec_wrState, writeStateReg, hb, if_neg Bool.false_ne_true]

end

theorem decodeBus_start : decodeBus 0x6000000001 = .start := by decide

/-- P5's second command, `WR STATE[12], 2`. -/
theorem decodeBus_write_counter : decodeBus 0x4C00000002 = .wrState 12 2 := by decide

/-- P5 with the write issued before the ENGINE's 21 steps: it is dropped. -/
theorem racingWrite_dropped (s : State) (hb : s.BUSY = false) (he : s.ERR = false)
    (hp : s.program = [.command 0x6000000001, .command 0x4C00000002])
    (hu : s.turns = .host :: .host :: List.replicate 21 .engine) :
    ∃ t, runFor 23 s = .next t ∧ t.program = [] ∧ isFinished t ∧ t.S = s.S ∧ t.OUT = blockFn s.S ∧ t.ERR = true ∧
      t.CAUSE = 1 := by
  obtain ⟨s₁, h₁, hs₁, ⟨he₁, _⟩, hp₁, hu₁⟩ := step_start hu hp decodeBus_start hb
  obtain ⟨s₂, h₂, hs₂, ⟨he₂, hc₂⟩, hp₂, hu₂⟩ := step_dropped_write hu₁ hp₁ decodeBus_write_counter hs₁
  obtain ⟨t, hrun, _, ht⟩ := hs₂.finishes (us := []) (by rw [hu₂, List.append_nil])
  obtain ⟨he₃, hc₃⟩ := ht.record
  rw [runFor_of_step 22 h₁, runFor_of_step 21 h₂]
  refine ⟨t, hrun, ht.program.trans hp₂, ht.finished, ht.stateRegs, ht.output, he₃.trans he₂, ?_⟩
  rw [hc₃, hc₂, he₁, he, cond_false]

/-- P5 with the write issued after the ENGINE's 21 steps: it is stored. -/
theorem racingWrite_stored (s : State) (hb : s.BUSY = false) (he : s.ERR = false)
    (hp : s.program = [.command 0x6000000001, .command 0x4C00000002])
    (hu : s.turns = .host :: (List.replicate 21 .engine ++ [.host])) :
    ∃ t, runFor 23 s = .next t ∧ t.program = [] ∧ isFinished t ∧ t.S = s.S.set 12 2 ∧ t.OUT = blockFn s.S ∧
      t.ERR = false := by
  obtain ⟨s₁, h₁, hs₁, ⟨he₁, _⟩, hp₁, hu₁⟩ := step_start hu hp decodeBus_start hb
  obtain ⟨s₂, hrun, hu₂, hs₂⟩ := hs₁.finishes hu₁
  obtain ⟨hb₂, hd₂⟩ := hs₂.finished
  obtain ⟨he₂, _⟩ := hs₂.record
  have h₃ := step_stored_write hu₂ (hs₂.program.trans hp₁) decodeBus_write_counter hb₂
  rw [runFor_of_step 22 h₁, runFor_add 21 1 s₁ s₂ hrun, runFor_of_step 0 h₃]
  exact ⟨_, rfl, rfl, ⟨hb₂, hd₂⟩, by simp [hs₂.stateRegs], hs₂.output, he₂.trans (he₁.trans he)⟩

/-- Settles O59: the two interleavings are those of the two lemmas above, all of whose turns are laid down. -/
theorem racingWriteHasBothOutcomesAndOneResult : Obligations.RacingWriteHasBothOutcomesAndOneResult := by
  intro s hb he hp
  refine ⟨⟨.host :: .host :: List.replicate 21 .engine, 23, ?_⟩, ⟨.host :: (List.replicate 21 .engine ++ [.host]), 23, ?_⟩⟩
  · obtain ⟨t, ht⟩ := racingWrite_dropped { s with turns := .host :: .host :: List.replicate 21 .engine } hb he hp rfl
    exact ⟨t, by simp [noReset], ht⟩
  · obtain ⟨t, ht⟩ := racingWrite_stored { s with turns := .host :: (List.replicate 21 .engine ++ [.host]) } hb he hp rfl
    exact ⟨t, by simp [noReset], ht⟩

end Sys2Proof.Machine
end

section
/-! PROOFS. 30_encoding: command words, their fields, their canonical words and the rows of the map. -/

namespace Sys2Proof

/-! ### Decode of encode -/

/-- The per-instruction family RoundTrip, for every instruction. -/
theorem roundTrip (i : Instr) : Laws.RoundTrip.Statement i := by
  cases i with
  | rdState j => exact Laws.RoundTrip.rdState j
  | wrState j v => exact Laws.RoundTrip.wrState j v
  | rdOut j => exact Laws.RoundTrip.rdOut j
  | wrOut j v => exact Laws.RoundTrip.wrOut j v
  | rdCtrl => exact Laws.RoundTrip.rdCtrl
  | start => exact Laws.RoundTrip.start
  | wrCtrlNop => exact Laws.RoundTrip.wrCtrlNop
  | rdStatus => exact Laws.RoundTrip.rdStatus
  | wrStatus v => exact Laws.RoundTrip.wrStatus v
  | rdRsvd a => exact Laws.RoundTrip.rdRsvd a
  | wrRsvd a v => exact Laws.RoundTrip.wrRsvd a v
  | colround k => exact Laws.RoundTrip.colround k
  | diaground k => exact Laws.RoundTrip.diaground k
  | finaladd => exact Laws.RoundTrip.finaladd
  | seqRsvd k => exact Laws.RoundTrip.seqRsvd k
  | _ => exact fun _ _ h => nomatch h

/-- Settles O2, instruction by instruction: the eleven commands by the decoder's equation for their region, the four entries
by the decoder's tests of the index; the others have no encoding. -/
theorem decodeEncodeRoundTrip : Obligations.DecodeEncodeRoundTrip :=
  fun i e hwf he => roundTrip i hwf e he

/-! ### Canonical words -/

/-- What holds of the words of each region of the window holds of every command word (20_memory R51, 30_encoding R82). -/
theorem busWord_induction {P : BitVec 39 → Prop} (state : ∀ we i v, P (busWord we (stateAddr i) v))
    (out : ∀ we i v, P (busWord we (outAddr i) v)) (ctrl : ∀ we v, P (busWord we 0x20 v))
    (status : ∀ we v, P (busWord we 0x21 v)) (reserved : ∀ we a v, 0x22 ≤ a.toNat → P (busWord we a v))
    (w : BitVec 39) : P w := by
  rw [← busWord_fields w]
  obtain ⟨i, ha⟩ | ⟨i, ha⟩ | ha | ha | ha := addr_cases (busAddr w)
  · exact ha ▸ state _ i _
  · exact ha ▸ out _ i _
  · exact ha ▸ ctrl _ _
  · exact ha ▸ status _ _
  · exact reserved _ _ _ ha

/-- A well-formed operation whose encoding is a command word. -/
def isCommand (i : Instr) : Prop := i.wf = true ∧ ∃ c, encode i = some (.bus c)

theorem isCommand_decodeBus (w : BitVec 39) : isCommand (decodeBus w) := by
  induction w using busWord_induction with
  | state we i v =>
    rw [decodeBus_state]
    cases we <;> exact ⟨rfl, _, rfl⟩
  | out we i v =>
    rw [decodeBus_out]
    cases we <;> exact ⟨rfl, _, rfl⟩
  | ctrl we v =>
    rw [decodeBus_ctrl]
    cases we <;> cases v.getLsbD 0 <;> exact ⟨rfl, _, rfl⟩
  | status we v =>
    rw [decodeBus_status]
    cases we <;> exact ⟨rfl, _, rfl⟩
  | reserved we a v h =>
    rw [decodeBus_reserved we a v h]
    cases we <;> exact ⟨decide_eq_true h, _, rfl⟩

/-- Settles O3: what a word decodes to is well-formed and has a command word for its encoding, which decodes back by O2. -/
theorem everyCommandWordHasACanonicalWord : Obligations.EveryCommandWordHasACanonicalWord := by
  intro w
  obtain ⟨hwf, c, hc⟩ := isCommand_decodeBus w
  exact ⟨hwf, c, hc, roundTrip (decodeBus w) hwf (.bus c) hc⟩

/-! ### The rows of the map -/

/-- The bits that tell the rows apart: `we`, `addr` and bit 0 (30_encoding R83). -/
def selectorMask : BitVec 39 := 0x7F00000001

/-- A row sees no more of a word than a mask that covers its own. -/
theorem fits_and {n : Nat} {r : Row n} {m : BitVec n} (h : m &&& r.mask = r.mask) (w : BitVec n) :
    r.fits (w &&& m) = r.fits w := by
  rw [Row.fits, Row.fits, BitVec.and_assoc, h]

theorem busWord_and (we we' : Bool) (a a' : BitVec 6) (v v' : Word) :
    busWord we a v &&& busWord we' a' v' = busWord (we && we') (a &&& a') (v &&& v') := by
  apply BitVec.eq_of_getLsbD_eq
  intro i _
  simp only [BitVec.getLsbD_and, busWord_getLsbD]
  split_ifs <;> simp [Bool.and_left_comm, Bool.and_assoc]

theorem busWord_and_selectorMask (we : Bool) (a : BitVec 6) (v : Word) :
    busWord we a v &&& selectorMask = busWord we a (v &&& 1) := by
  have mask : selectorMask = busWord true (BitVec.allOnes 6) 1 := by decide
  rw [mask, busWord_and, Bool.and_true, BitVec.and_allOnes]

/-- Of `wdata` the decoder looks at bit 0 at most, to choose the row. -/
theorem mnemonic_decodeBus_busWord (we : Bool) (a : BitVec 6) (v : Word) :
    (decodeBus (busWord we a v)).mnemonic = (decodeBus (busWord we a (v &&& 1))).mnemonic := by
  obtain ⟨i, rfl⟩ | ⟨i, rfl⟩ | rfl | rfl | h := addr_cases a
  · rw [decodeBus_state, decodeBus_state]
    cases we <;> rfl
  · rw [decodeBus_out, decodeBus_out]
    cases we <;> rfl
  · rw [decodeBus_ctrl, decodeBus_ctrl]
    simp
  · rw [decodeBus_status, decodeBus_status]
    cases we <;> rfl
  · rw [decodeBus_reserved we a _ h, decodeBus_reserved we a _ h]
    cases we <;> rfl

/-- Exactly one row fits the word, and it has the name of what the word decodes to. -/
def hasItsRow (w : BitVec 39) : Prop :=
  ∃ r ∈ busRows, r.fits w = true ∧ r.mnemonic = (decodeBus w).mnemonic ∧
    ∀ r' ∈ busRows, r'.fits w = true → r' = r

theorem hasItsRow_selector : ∀ (we : Bool) (a : BitVec 6), hasItsRow (busWord we a 0) ∧ hasItsRow (busWord we a 1) := by
  unfold hasItsRow
  decide

theorem selectorMask_and_mask : ∀ r ∈ busRows, selectorMask &&& r.mask = r.mask := by decide

theorem hasItsRow_of_selector (we : Bool) (a : BitVec 6) (v : Word) (h : hasItsRow (busWord we a (v &&& 1))) :
    hasItsRow (busWord we a v) := by
  have fits : ∀ r ∈ busRows, r.fits (busWord we a (v &&& 1)) = r.fits (busWord we a v) := fun r hr => by
    rw [← busWord_and_selectorMask, fits_and (selectorMask_and_mask r hr)]
  obtain ⟨r, hr, hfits, hname, honly⟩ := h
  refine ⟨r, hr, fits r hr ▸ hfits, hname.trans (mnemonic_decodeBus_busWord we a v).symm, fun r' hr' hfits' => ?_⟩
  exact honly r' hr' ((fits r' hr').trans hfits')

theorem and_one_eq_zero_or_one (v : Word) : v &&& 1 = 0 ∨ v &&& 1 = 1 := by
  have h : v &&& 1 = _ := BitVec.and_one_eq_setWidth_ofBool_getLsbD
  rw [h]
  cases v.getLsbD 0
  · exact .inl rfl
  · exact .inr rfl

/-- Settles O4: rows and decoder look at the eight selecting bits only, so the 256 words of those bits decide it. -/
theorem everyWordFitsExactlyOneRow : Obligations.EveryWordFitsExactlyOneRow := by
  intro w
  rw [← busWord_fields w]
  generalize busWe w = we, busAddr w = a, busWdata w = v
  obtain ⟨h0, h1⟩ := hasItsRow_selector we a
  apply hasItsRow_of_selector
  obtain hv | hv := and_one_eq_zero_or_one v <;> rw [hv]
  · exact h0
  · exact h1

/-! ### The fields of a word -/

/-- Settles O5: each clause is the decoder's equation for its region. -/
theorem fieldsSelectTheCommand : Obligations.FieldsSelectTheCommand := by
  intro i a v
  refine ⟨decodeBus_state false i v, decodeBus_state true i v, decodeBus_out false i v, decodeBus_out true i v,
    decodeBus_ctrl false v, fun hv => ?_, fun hv => ?_, decodeBus_status false v, decodeBus_status true v,
    decodeBus_reserved false a v, decodeBus_reserved true a v⟩
  · rw [decodeBus_ctrl, hv]
    rfl
  · rw [decodeBus_ctrl, hv]
    rfl

/-- The number of a command word (30_encoding R81). -/
theorem busWord_toNat (we : Bool) (a : BitVec 6) (v : Word) :
    (busWord we a v).toNat = we.toNat * 2 ^ 38 + a.toNat * 2 ^ 32 + v.toNat := by
  have h : (busWord we a v).toNat = (BitVec.ofBool we ++ a ++ v : BitVec (1 + 6 + 32)).toNat := rfl
  rw [h, BitVec.toNat_append, ← Nat.shiftLeft_add_eq_or_of_lt v.isLt, BitVec.toNat_append,
    ← Nat.shiftLeft_add_eq_or_of_lt a.isLt, BitVec.toNat_ofBool, Nat.shiftLeft_eq, Nat.shiftLeft_eq]
  omega

/-- Settles O6: the fields are laid side by side, so the word's number is their weighted sum. -/
theorem commandWordIsItsThreeFields : Obligations.CommandWordIsItsThreeFields :=
  ⟨busWord_toNat, busWord_fields⟩

/-- Settles O1: sixteen literal words, each decoded. -/
theorem specWordsDecodeToTheirCommands : Obligations.SpecWordsDecodeToTheirCommands := by
  unfold Obligations.SpecWordsDecodeToTheirCommands
  decide

/-! ### Assembler lines -/

theorem stateAddr_toNat (i : Fin 16) : (stateAddr i).toNat = i.val := by
  revert i
  decide

theorem outAddr_toNat (i : Fin 16) : (outAddr i).toNat = 0x10 + i.val := by
  revert i
  decide

/-- The number of a write command: `we` is 1. -/
theorem busWord_write_toNat (a : BitVec 6) (v : Word) : (busWord true a v).toNat = 2 ^ 38 + a.toNat * 2 ^ 32 + v.toNat := by
  rw [busWord_toNat, Bool.toNat_true, Nat.one_mul]

/-- The number of a canonical read command: `we` and `wdata` are 0. -/
theorem busWord_read_toNat (a : BitVec 6) : (busWord false a 0).toNat = a.toNat * 2 ^ 32 := by
  rw [busWord_toNat]
  simp

/-- Settles O8: each line is a word of three fields, decoded by its region's equation and read as a number by O6. -/
theorem assemblerLinesAreTheirCommands : Obligations.AssemblerLinesAreTheirCommands := by
  intro i a v
  have state := stateAddr_toNat i
  have out := outAddr_toNat i
  refine ⟨⟨decodeBus_state true i v, state ▸ busWord_write_toNat (stateAddr i) v⟩,
    ⟨decodeBus_state false i 0, state ▸ busWord_read_toNat (stateAddr i)⟩,
    ⟨decodeBus_out false i 0, out ▸ busWord_read_toNat (outAddr i)⟩,
    ⟨decodeBus_out true i v, out ▸ busWord_write_toNat (outAddr i) v⟩,
    ⟨decodeBus_ctrl true 1, rfl⟩, ⟨decodeBus_ctrl true v, busWord_write_toNat 0x20 v⟩,
    ⟨decodeBus_ctrl false 0, rfl⟩, ⟨decodeBus_status false 0, rfl⟩,
    ⟨decodeBus_status true v, busWord_write_toNat 0x21 v⟩, busWord_write_toNat a v, busWord_read_toNat a⟩

end Sys2Proof
end

section
/-! PROOFS. 30_encoding: the micro-program, its entries as the ENGINE's steps and the indices without an entry. -/

namespace Sys2Proof.Machine

/-! ### The entry of each index -/

section
variable {k : BitVec 5}

theorem decodeSeq_even (lt : k.toNat < 20) (even : k.getLsbD 0 = false) : decodeSeq k = .colround k := by
  rw [decodeSeq, if_pos lt, even, if_neg Bool.false_ne_true]

theorem decodeSeq_odd (lt : k.toNat < 20) (odd : k.getLsbD 0 = true) : decodeSeq k = .diaground k := by
  rw [decodeSeq, if_pos lt, if_pos odd]

theorem decodeSeq_last (h : k.toNat = 20) : decodeSeq k = .finaladd := by
  rw [decodeSeq, if_neg h.not_lt, if_pos h]

theorem decodeSeq_reserved (h : 20 < k.toNat) : decodeSeq k = .seqRsvd k := by
  rw [decodeSeq, if_neg h.not_gt, if_neg h.ne']

end

theorem seqRows_fit_once : ∀ k : BitVec 5, ∃ r ∈ seqRows, r.fits k = true ∧ r.mnemonic = (decodeSeq k).mnemonic ∧
    ∀ r' ∈ seqRows, r'.fits k = true → r' = r := by
  decide

/-- Settles O7: the decoder's test of the index gives the entry; the rows are compared at each of the 32 indices. -/
theorem microProgramEntries : Obligations.MicroProgramEntries :=
  fun k => ⟨decodeSeq_even, decodeSeq_odd, decodeSeq_last, decodeSeq_reserved, seqRows_fit_once k⟩

/-! ### Selected entries are the ENGINE's steps -/

section
variable {s : State} {k : BitVec 5}

theorem exec_colround_selected (hb : s.BUSY = true) (hk : s.rnd = k) :
    exec (.colround k) s = .next (applyRound colround s) := by
  rw [exec_colround, if_pos ((entrySelected_iff k s).mpr ⟨hb, hk⟩)]

theorem exec_diaground_selected (hb : s.BUSY = true) (hk : s.rnd = k) :
    exec (.diaground k) s = .next (applyRound diaground s) := by
  rw [exec_diaground, if_pos ((entrySelected_iff k s).mpr ⟨hb, hk⟩)]

theorem exec_finaladd_selected (hb : s.BUSY = true) (hk : s.rnd = 20) :
    exec .finaladd s = .next (finishTransform s) := by
  rw [exec_finaladd, if_pos ((entrySelected_iff 20 s).mpr ⟨hb, hk⟩)]

theorem exec_eRound_enabled (hb : s.BUSY = true) (lt : s.rnd.toNat < 20) :
    exec .eRound s = .next (if s.rnd.getLsbD 0 then applyRound diaground s else applyRound colround s) := by
  rw [exec_eRound, if_pos (by simp [hb, lt])]

theorem exec_eFinal_enabled (hb : s.BUSY = true) (h20 : s.rnd.toNat = 20) :
    exec .eFinal s = .next (finishTransform s) := by
  rw [exec_eFinal, if_pos (by simp [hb, h20])]

end

/-- Settles O29: a selected entry performs the update of the ENGINE's step that its index enables. -/
theorem selectedEntriesAreTheEnginesSteps : Obligations.SelectedEntriesAreTheEnginesSteps := by
  rintro s k hb rfl
  refine ⟨fun lt even => ?_, fun lt odd => ?_, fun h20 => ?_⟩
  · rw [exec_colround_selected hb rfl, exec_eRound_enabled hb lt, even]
    exact ⟨rfl, rfl⟩
  · rw [exec_diaground_selected hb rfl, exec_eRound_enabled hb lt, odd]
    exact ⟨rfl, rfl⟩
  · rw [exec_finaladd_selected hb (BitVec.eq_of_toNat_eq h20), exec_eFinal_enabled hb h20]
    exact ⟨rfl, rfl⟩

/-! ### Steps that are not enabled -/

theorem entrySelected_eq_false {s : State} {k : BitVec 5} (h : s.BUSY = false ∨ s.rnd ≠ k) :
    entrySelected k s = false := by
  rw [← Bool.not_eq_true, entrySelected_iff, not_and_or, Bool.not_eq_true]
  exact h

/-- Settles O33: where a step's condition fails, its update is not made. -/
theorem disabledEngineStepsChangeNothing : Obligations.DisabledEngineStepsChangeNothing := by
  intro s k
  refine ⟨fun h => ?_, fun h => ⟨?_, ?_⟩, fun h => ⟨?_, ?_⟩⟩
  · rw [exec_eRound, if_neg]
    simpa [Decidable.imp_iff_not_or] using h
  · rw [exec_eFinal, if_neg]
    simpa [Decidable.imp_iff_not_or] using h
  · have h20 : entrySelected 20 s = false := entrySelected_eq_false (h.imp_right fun hne e => hne (e ▸ rfl))
    rw [exec_finaladd, h20, if_neg Bool.false_ne_true]
  · rw [exec_colround, entrySelected_eq_false h, if_neg Bool.false_ne_true]
  · rw [exec_diaground, entrySelected_eq_false h, if_neg Bool.false_ne_true]

/-! ### The indices without an entry -/

/-- A step on an ENGINE turn runs the entry that `rnd` selects while a transform runs. -/
theorem step_of_engine_turn {s : State} {us : List Turn} (hu : s.turns = .engine :: us) (hb : s.BUSY = true) :
    step s = exec (decodeSeq s.rnd) { s with turns := us } :=
  (step_of_turn s .engine us hu).trans (engineTurn_of_busy { s with turns := us } hb)

/-- Settles O30: the reserved indices decode to SEQ_RSVD, which faults; the control invariant has `rnd` at 20 at most, so a
step is never stuck, and every step keeps it. -/
theorem reservedIndicesAreStuck : Obligations.ReservedIndicesAreStuck := by
  refine ⟨fun k => decodeSeq_reserved, fun k s => exec_seqRsvd s k, fun s us hu hb stuck => ?_, fun s hs stuck => ?_,
    fun s t hs h => (everyStepKeepsTheControlInvariant s t hs h).rndRange⟩
  · rw [step_of_engine_turn hu hb, decodeSeq_reserved stuck, exec_seqRsvd]
  · obtain ⟨t, ht⟩ := hs.canStep
    rw [ht] at stuck
    cases stuck

/-! ### A word placed for the next step -/

theorem step_presentCommand (w : BitVec 39) (s : State) : step (presentCommand w s) = exec (decodeBus w) s :=
  step_of_host_turn (presentCommand w s) rfl rfl

theorem step_selectEntry (k : BitVec 5) (s : State) :
    step (selectEntry k s) = exec (decodeSeq k) { s with BUSY := true, rnd := k } :=
  step_of_engine_turn (s := selectEntry k s) rfl rfl

theorem decodeTableWord_bus (w : BitVec 39) : decodeTableWord 40 w.toNat = some (decodeBus w) := by
  simp [decodeTableWord, decodeBits, w.isLt]

theorem decodeTableWord_seq (k : BitVec 5) : decodeTableWord 8 k.toNat = some (decodeSeq k) := by
  simp [decodeTableWord, decodeBits, k.isLt]

/-- Settles O11: the number of a word is read back as the word, and the turn laid down for it runs what it decodes to. -/
theorem placedWordRunsNext : Obligations.PlacedWordRunsNext := by
  refine ⟨fun s w => ⟨?_, decodeTableWord_bus w⟩, fun s k => ⟨?_, decodeTableWord_seq k⟩⟩
  · rw [State.withFetchWord, if_neg (by decide), BitVec.ofNat_toNat, BitVec.setWidth_eq, step_presentCommand]
  · rw [State.withFetchWord, if_pos (by decide), BitVec.ofNat_toNat, BitVec.setWidth_eq, step_selectEntry]

end Sys2Proof.Machine
end

section
/-! PROOFS. 30_encoding: the pseudo-instructions, their expansions and the runs of these with no turn laid down (R96). -/

namespace Sys2Proof.Machine

/-! ### The expansions -/

/-- Register `i` is the `i`-th of the later indices, counted from 1. -/
theorem laterIndices_getElem? : ∀ i : Fin 16, i ≠ 0 → laterIndices[i.val - 1]? = some i := by decide

theorem getElem?_map_laterIndices (f : Fin 16 → HostOp) {i : Fin 16} (h : i ≠ 0) :
    (laterIndices.map f)[i.val - 1]? = some (f i) := by
  rw [List.getElem?_map, laterIndices_getElem? i h, Option.map_some]

/-- Settles O46: each update is that of the first command on the state with the rest of the expansion issued. -/
theorem pseudoInstructionsPerformTheirExpansion : Obligations.PseudoInstructionsPerformTheirExpansion := by
  intro ws c s
  refine ⟨⟨_, exec_loadstate s ws, rfl, fun i hi => getElem?_map_laterIndices _ hi, rfl⟩,
    ⟨_, exec_readout s, rfl, fun i hi => getElem?_map_laterIndices _ hi, rfl⟩,
    ⟨_, exec_runblock s, rfl⟩, ⟨_, exec_setctr s c, rfl⟩, ⟨_, exec_poll s, fun hd => ?_, fun hd => ?_, ?_⟩⟩
  · rw [exec_rdStatus, if_pos hd]
  · rw [exec_rdStatus, if_neg (Bool.not_eq_true _ ▸ hd)]
    rfl
  · cases s.DONE <;> rfl

/-! ### The HOST's steps with no turn laid down and no transform running -/

section
variable {s : State} {op : HostOp} {rest : List HostOp} (hu : s.turns = []) (hb : s.BUSY = false)
include hu hb

/-- Such a step is the next operation of the program. -/
theorem step_of_program (hp : s.program = op :: rest) : step s = exec op.instr { s with program := rest } :=
  (step_of_no_turn_idle s hu hb).trans (hostTurn_of_cons s hp)

theorem step_stores {i : Fin 16} {v : Word} (hp : s.program = op :: rest) (hi : op.instr = .wrState i v) :
    step s = .next { s with S := s.S.set i v, program := rest } := by
  rw [step_of_program hu hb hp, hi, exec_wrState, writeStateReg, hb, if_neg Bool.false_ne_true]

/-- LOADSTATE stores the first word and leaves the other fifteen commands to be issued. -/
theorem step_loadstate {ws : Block} (hp : s.program = .loadstate ws :: rest) :
    step s = .next { s with S := s.S.set (0 : Fin 16) ws[(0 : Fin 16)], program := loadstateRest ws ++ rest } := by
  rw [step_of_program hu hb hp, HostOp.instr, exec_loadstate, writeStateReg, issue_BUSY, hb, if_neg Bool.false_ne_true]
  rfl

theorem step_reads {i : Fin 16} (hd : s.DONE = true) (hp : s.program = op :: rest) (hi : op.instr = .rdOut i) :
    step s = .next { s with responses := s.OUT[i] :: s.responses, program := rest } := by
  rw [step_of_program hu hb hp, hi, exec_rdOut, readOutReg, if_pos hd, respond]

/-- READOUT returns the first word and leaves the other fifteen reads to be issued. -/
theorem step_readout (hd : s.DONE = true) (hp : s.program = .readout :: rest) :
    step s = .next { s with responses := s.OUT[(0 : Fin 16)] :: s.responses, program := readoutRest ++ rest } := by
  rw [step_of_program hu hb hp, HostOp.instr, exec_readout, readOutReg, issue_DONE, if_pos hd]
  rfl

/-- POLL's reading once a result is ready: the STATUS word is received and nothing is issued. -/
theorem step_poll_done (hd : s.DONE = true) (hp : s.program = .poll :: rest) :
    step s = .next { s with responses := statusWord s :: s.responses, program := rest } := by
  rw [step_of_program hu hb hp, HostOp.instr, exec_poll, if_pos hd]
  rfl

end

/-! ### LOADSTATE -/

/-- The words of `ws` stored one after another at the registers of a list. -/
def storeWords (ws : Block) : List (Fin 16) → Block → Block
  | [], X => X
  | i :: is, X => storeWords ws is (X.set i ws[i])

theorem storeWords_get (ws : Block) (is : List (Fin 16)) (X : Block) (j : Fin 16) :
    (storeWords ws is X)[j] = if j ∈ is then ws[j] else X[j] := by
  induction is generalizing X with
  | nil => rfl
  | cons i is ih =>
    rw [storeWords, ih, set_get]
    by_cases hj : j = i
    · simp [hj]
    · simp [hj]

theorem mem_allIndices : ∀ j : Fin 16, j ∈ 0 :: laterIndices := by decide

theorem storeWords_allIndices (ws X : Block) : storeWords ws (0 :: laterIndices) X = ws :=
  block_ext fun j => by rw [storeWords_get, if_pos (mem_allIndices j)]

/-- A list of write commands, one a step, stores its words. -/
theorem runFor_writes (ws : Block) (rest : List HostOp) (is : List (Fin 16)) {s : State} (hu : s.turns = [])
    (hb : s.BUSY = false) (hp : s.program = is.map (fun i => .command (assemble (.wrState i ws[i]))) ++ rest) :
    runFor is.length s = .next { s with S := storeWords ws is s.S, program := rest } := by
  induction is generalizing s with
  | nil =>
    obtain rfl : s.program = rest := hp
    rfl
  | cons i is ih =>
    rw [List.length_cons, runFor_of_step is.length (step_stores hu hb hp (decodeBus_state true i ws[i]))]
    exact ih hu hb rfl

/-- Settles O47: the first word is stored by LOADSTATE's own step, the other fifteen by the commands it issues. -/
theorem loadstateLoadsAllSixteenWords : Obligations.LoadstateLoadsAllSixteenWords := by
  intro ws rest s hb hu hp
  have hS : storeWords ws laterIndices (s.S.set (0 : Fin 16) ws[(0 : Fin 16)]) = ws := storeWords_allIndices ws s.S
  calc
    _ = runFor laterIndices.length _ := runFor_of_step 15 (step_loadstate hu hb hp)
    _ = .next _ := runFor_writes ws rest laterIndices hu hb rfl
    _ = .next { s with S := ws, program := rest } := by rw [hS]

/-! ### READOUT -/

/-- A list of OUT reads while a result is ready, one a step, returns its words in order. -/
theorem runFor_reads (rest : List HostOp) (is : List (Fin 16)) {s : State} (hu : s.turns = []) (hb : s.BUSY = false)
    (hd : s.DONE = true) (hp : s.program = is.map (fun i => .command (assemble (.rdOut i))) ++ rest) :
    runFor is.length s =
      .next { s with responses := (is.map fun i => s.OUT[i]).reverse ++ s.responses, program := rest } := by
  induction is generalizing s with
  | nil =>
    obtain rfl : s.program = rest := hp
    rfl
  | cons i is ih =>
    rw [List.length_cons, runFor_of_step is.length (step_reads hu hb hd hp (decodeBus_out false i 0)), List.map_cons,
      List.reverse_cons, List.append_assoc]
    exact ih hu hb hd rfl

theorem map_allIndices (X : Block) : (0 :: laterIndices).map (fun i => X[i]) = X.toList := by
  have indices : 0 :: laterIndices = List.finRange 16 := by decide
  rw [indices]
  apply List.ext_getElem
  · simp
  · simp

/-- READOUT while a result is ready returns the sixteen words of OUT in order. -/
theorem runFor_readout {s : State} {rest : List HostOp} (hu : s.turns = []) (hb : s.BUSY = false) (hd : s.DONE = true)
    (hp : s.program = .readout :: rest) :
    runFor 16 s = .next { s with responses := s.OUT.toList.reverse ++ s.responses, program := rest } := by
  rw [runFor_of_step 15 (step_readout hu hb hd hp), ← map_allIndices, List.map_cons, List.reverse_cons, List.append_assoc]
  exact runFor_reads rest laterIndices hu hb hd rfl

/-- Settles O48: the run changes nothing but what the host has received and its program. -/
theorem readoutReturnsTheWholeOutput : Obligations.ReadoutReturnsTheWholeOutput := by
  intro rest s hb hd hu hp
  exact ⟨_, runFor_readout hu hb hd hp, rfl, keepsEngine_refl s, rfl, hu⟩

/-! ### RUNBLOCK -/

theorem nextTurn_of_busy {s : State} (hu : s.turns = []) (hb : s.BUSY = true) : nextTurn s = .engine := by
  rw [nextTurn, hu]
  exact if_pos hb

/-- A running transform with no turn laid down finishes in the rounds its counter has left and the final addition. -/
theorem runFor_default_turns {X : Block} (k : Nat) {s : State} (hs : TransformOf X s) (hb : s.BUSY = true)
    (hk : s.rnd.toNat + k = 20) (hu : s.turns = []) :
    ∃ t, runFor (k + 1) s = .next t ∧ FinishesTo X s t ∧ t.rnd = 0 ∧ t.responses = s.responses ∧ t.turns = [] := by
  have turn := nextTurn_of_busy hu hb
  have tail : s.turns.tail = [] := congrArg List.tail hu
  induction k generalizing s with
  | zero =>
    refine ⟨_, runFor_of_step 0 (step_of_engine_final turn hb hk), ?_, rfl, rfl, tail⟩
    obtain ⟨hS, _⟩ := hs.locked hb
    exact ⟨hs.of_popTurn.of_finishTransform hb hk, ⟨rfl, rfl⟩, hS, ⟨rfl, rfl⟩, rfl⟩
  | succ k ih =>
    have lt : s.rnd.toNat < 20 := by omega
    have hr : (s.rnd + 1).toNat + k = 20 := by
      rw [rnd_succ s.rnd lt]
      omega
    rw [runFor_of_step (k + 1) (step_of_engine_round turn hb lt)]
    obtain ⟨t, hrun, ht, hrest⟩ :=
      ih (hs.of_popTurn.of_applyRound hb lt) hb hr tail (nextTurn_of_busy tail hb) (by simp [hu])
    exact ⟨t, hrun, ⟨ht.transform, ht.finished, ht.stateRegs, ht.record, ht.program⟩, hrest⟩

/-- RUNBLOCK's START is accepted; POLL and READOUT are left to be issued. -/
theorem step_runblock {s : State} {rest : List HostOp} (hu : s.turns = []) (hb : s.BUSY = false)
    (hp : s.program = .runblock :: rest) :
    ∃ t, step s = .next t ∧ StartedOn s.S t ∧ keepsRecord s t ∧ t.responses = s.responses ∧
      t.program = .poll :: .readout :: rest ∧ t.turns = [] := by
  refine ⟨_, (step_of_program hu hb hp).trans (exec_runblock _),
    ⟨.of_startTransform (issue [.poll, .readout] { s with program := rest }) hb, ?_, ?_⟩, ?_, ?_, ?_, ?_⟩
  · simp
  · simp [hb]
  · simp [keepsRecord, hb]
  · simp
  · simp
  · simpa using hu

/-- Settles O49: START, the ENGINE's 21 steps, POLL's one reading and READOUT's sixteen, each stage from the state the one
before it leaves. -/
theorem runblockDeliversTheBlock : Obligations.RunblockDeliversTheBlock := by
  intro rest s hb hu hp
  obtain ⟨s₁, h₁, hs₁, ⟨he₁, hc₁⟩, hresp₁, hp₁, hu₁⟩ := step_runblock hu hb hp
  obtain ⟨s₂, h₂, hs₂, hr₂, hresp₂, hu₂⟩ :=
    runFor_default_turns 20 hs₁.transform hs₁.busy (by rw [hs₁.rnd]; rfl) hu₁
  obtain ⟨hb₂, hd₂⟩ := hs₂.finished
  obtain ⟨he₂, hc₂⟩ := hs₂.record
  have h₃ := step_poll_done hu₂ hb₂ hd₂ (hs₂.program.trans hp₁)
  rw [runFor_of_step 38 h₁, runFor_add 21 17 s₁ s₂ h₂, runFor_of_step 16 h₃]
  refine ⟨_, runFor_readout hu₂ hb₂ hd₂ rfl, ?_, hs₂.stateRegs, hs₂.output, ⟨hb₂, hd₂⟩, hr₂,
    ⟨he₂.trans he₁, hc₂.trans hc₁⟩, rfl, hu₂⟩
  rw [received, ← hs₂.output, ← hresp₁, ← hresp₂, List.reverse_cons, List.append_assoc]
  rfl

end Sys2Proof.Machine
end

section
/-! PROOFS. 40_arx_primitives: ADD32, XOR32 and ROTL32, and what evaluating a function leaves unchanged. -/

namespace Sys2Proof.Machine

/-- Delivering words changes `result` only (R115): the engine, the responses, the program, the turns and the draws stay. -/
theorem deliver_frame (vs : List Word) (s : State) :
    keepsEngine s (deliver vs s) ∧ received [] s (deliver vs s) ∧ (deliver vs s).program = s.program ∧
      (deliver vs s).turns = s.turns ∧ (deliver vs s).draws = s.draws :=
  ⟨keepsEngine_refl s, rfl, rfl, rfl, rfl⟩

theorem add32_toNat (x y : Word) : (add32 x y).toNat = (x.toNat + y.toNat) % 2 ^ 32 := by
  rw [add32_eq, BitVec.toNat_add]

/-- ROTL32 by `n` moves bit `k` to bit `(k + n) mod 32` (R112): bits from `32 - n` on wrap to the low end. -/
theorem rotl32_getLsbD (v : Word) {n k : Nat} (hn : n < 32) (hk : k < 32) :
    (rotl32 v n).getLsbD ((k + n) % 32) = v.getLsbD k := by
  rw [rotl32_eq v n hn, BitVec.getLsbD_rotateLeft_of_le hn]
  by_cases wraps : 32 ≤ k + n
  · have place : (k + n) % 32 = k + n - 32 := by omega
    have low : k + n - 32 < n := by omega
    have source : 32 - n + (k + n - 32) = k := by omega
    simp [place, low, source]
  · have inside : k + n < 32 := by omega
    simp [Nat.mod_eq_of_lt inside, inside]

/-- Settles O34: each function's word by its own lemma, what stays by `deliver_frame`. -/
theorem arxPrimitivesComplete : Obligations.ArxPrimitivesComplete := by
  intro x y n s
  refine ⟨?add, ?xor, ?rotl, ?outside⟩
  case add => exact ⟨_, add32 x y, exec_add32 s x y, rfl, add32_toNat x y, deliver_frame _ s⟩
  case xor => exact ⟨_, xor32 x y, exec_xor32 s x y, rfl, fun _ _ => BitVec.getLsbD_xor, deliver_frame _ s⟩
  case rotl =>
    intro h0 h32
    exact ⟨_, rotl32 x n, (exec_rotl32 s x n).trans (if_pos ⟨h0, h32⟩), rfl, fun _ => rotl32_getLsbD x h32,
      deliver_frame _ s⟩
  case outside =>
    intro h
    rw [exec_rotl32, if_neg (by omega)]

/-- Settles O35, bit by bit: bit `k` goes to `(k + n) mod 32` and from there back to `k`. -/
theorem rotationsUndoEachOther : Obligations.RotationsUndoEachOther := by
  intro x n h0 h32
  apply BitVec.eq_of_getLsbD_eq
  intro k hk
  have back : ((k + n) % 32 + (32 - n)) % 32 = k := by omega
  calc (rotl32 (rotl32 x n) (32 - n)).getLsbD k
    _ = (rotl32 (rotl32 x n) (32 - n)).getLsbD (((k + n) % 32 + (32 - n)) % 32) := by rw [back]
    _ = (rotl32 x n).getLsbD ((k + n) % 32) := rotl32_getLsbD _ (by omega) (Nat.mod_lt _ (by decide))
    _ = x.getLsbD k := rotl32_getLsbD x h32 hk

end Sys2Proof.Machine
end

section
/-! PROOFS. 41_quarter_round: QR's closed form, and QR undone line by line. -/

namespace Sys2Proof.Machine

/-! ### Each kind of line undone by its opposite -/

theorem xor32_xor32_cancel (x y : Word) : xor32 (xor32 x y) y = x := by
  rw [xor32, xor32, BitVec.xor_assoc, BitVec.xor_self, BitVec.xor_zero]

theorem add32_sub_cancel (x y : Word) : add32 x y - y = x := by
  rw [add32_eq, BitVec.add_sub_cancel]

theorem sub_add32_cancel (x y : Word) : add32 (x - y) y = x := by
  rw [add32_eq, BitVec.sub_add_cancel]

/-- Two rotations by amounts that add up to the word's width undo each other (R112). -/
theorem rotl32_rotl32_cancel (x : Word) {m n : Nat} (hm : 0 < m) (hn : 0 < n) (width : n + m = 32) :
    rotl32 (rotl32 x n) m = x := by
  obtain rfl : m = 32 - n := by omega
  exact rotationsUndoEachOther x n hn (by omega)

/-! ### QR -/

/-- From the last line of QR to the first, each line of `qrInv` meets the line it undoes. -/
theorem qrInv_qr (a b c d : Word) :
    qrInv (qr a b c d).a (qr a b c d).b (qr a b c d).c (qr a b c d).d = ⟨a, b, c, d⟩ := by
  simp (disch := decide) only [qr, qrInv, rotl32_rotl32_cancel, xor32_xor32_cancel, add32_sub_cancel]

/-- From the last line of `qrInv` to the first, each line of QR meets the line it undoes. -/
theorem qr_qrInv (a b c d : Word) :
    qr (qrInv a b c d).a (qrInv a b c d).b (qrInv a b c d).c (qrInv a b c d).d = ⟨a, b, c, d⟩ := by
  simp (disch := decide) only [qr, qrInv, rotl32_rotl32_cancel, xor32_xor32_cancel, sub_add32_cancel]

/-- Settles O37: the lines run backwards are a two-sided inverse of QR, so QR is a bijection. -/
theorem quarterRoundIsABijection : Obligations.QuarterRoundIsABijection := by
  refine ⟨Function.bijective_iff_has_inverse.mpr ⟨fun q => qrInv q.a q.b q.c q.d, ?left, ?right⟩, qrInv_qr, qr_qrInv⟩
  case left => exact fun q => qrInv_qr q.a q.b q.c q.d
  case right => exact fun q => qr_qrInv q.a q.b q.c q.d

/-- The twelve wired operations in their order compute QR (R132). -/
theorem foldl_run_qrWiring (a b c d : Word) : qrWiring.foldl MicroOp.run ⟨a, b, c, d⟩ = qr a b c d := rfl

/-- Settles O36: QR is its closed form by definition, the wiring by its lemma, what stays by `deliver_frame`. -/
theorem quarterRoundIsItsClosedForm : Obligations.QuarterRoundIsItsClosedForm := by
  intro a b c d s
  exact ⟨⟨_, exec_qr s a b c d, rfl, deliver_frame _ s⟩, foldl_run_qrWiring a b c d⟩

end Sys2Proof.Machine
end

section
/-! PROOFS. 42_rounds_and_schedule: the lane tables, a round lane by lane, and what the round functions are composed of. -/

namespace Sys2Proof.Machine

/-! ### The lane tables (R141, R142, R145) -/

/-- The four registers of a lane, in the order of its positions. -/
def Lane.regs (l : Lane) : List (Fin 16) := [l.ia, l.ib, l.ic, l.id]

theorem nodup_regs : ∀ (sel : Bool) (j : Fin 4), (laneIndex sel j).regs.Nodup := by decide

theorem notMem_regs_of_ne : ∀ (sel : Bool) (j k : Fin 4), k ≠ j →
    ∀ i ∈ (laneIndex sel k).regs, i ∉ (laneIndex sel j).regs := by decide

theorem exists_mem_regs : ∀ (sel : Bool) (i : Fin 16), ∃ j, i ∈ (laneIndex sel j).regs := by decide

/-! ### Lanes read and written -/

theorem laneWrite_get_of_notMem {l : Lane} {i : Fin 16} (h : i ∉ l.regs) (Y : Block) (q : Quad) :
    (laneWrite Y l q)[i] = Y[i] := by
  simp only [Lane.regs, List.mem_cons, List.not_mem_nil, or_false, not_or] at h
  simp only [laneWrite_get, h, if_false]

theorem laneRead_congr {X Y : Block} {l : Lane} : laneRead X l = laneRead Y l ↔ ∀ i ∈ l.regs, X[i] = Y[i] := by
  simp [laneRead, Lane.regs]

theorem laneRead_laneWrite_same {l : Lane} (h : l.regs.Nodup) (Y : Block) (q : Quad) :
    laneRead (laneWrite Y l q) l = q := by
  simp only [Lane.regs, List.nodup_cons, List.mem_cons, List.not_mem_nil, or_false, not_or] at h
  simp only [laneRead, laneWrite_get, h, if_true, if_false]

/-- The lanes of a table share no register: a lane written back is seen at that lane and at no other. -/
theorem laneRead_laneWrite (sel : Bool) (j k : Fin 4) (Y : Block) (q : Quad) :
    laneRead (laneWrite Y (laneIndex sel j) q) (laneIndex sel k) = if k = j then q else laneRead Y (laneIndex sel k) := by
  split
  next same => rw [same, laneRead_laneWrite_same (nodup_regs sel j)]
  next other =>
    exact laneRead_congr.mpr fun i hi => laneWrite_get_of_notMem (notMem_regs_of_ne sel j k other i hi) Y q

/-- The lanes of a table cover every register: blocks that agree on all four lanes are equal. -/
theorem block_ext_lanes (sel : Bool) {X Y : Block}
    (h : ∀ j, laneRead X (laneIndex sel j) = laneRead Y (laneIndex sel j)) : X = Y := by
  apply block_ext
  intro i
  obtain ⟨j, hi⟩ := exists_mem_regs sel i
  exact laneRead_congr.mp (h j) i hi

/-! ### A function applied to the four lanes side by side -/

/-- Each lane of `Y` in the order replaced by its new words. -/
theorem laneRead_foldl_laneWrite (sel : Bool) (f : Fin 4 → Quad) (k : Fin 4) (order : List (Fin 4)) (Y : Block) :
    laneRead (order.foldl (fun Z j => laneWrite Z (laneIndex sel j) (f j)) Y) (laneIndex sel k) =
      if k ∈ order then f k else laneRead Y (laneIndex sel k) := by
  induction order generalizing Y with
  | nil => rfl
  | cons j rest ih =>
    rw [List.foldl_cons, ih, laneRead_laneWrite]
    by_cases same : k = j
    · simp [same]
    · simp [same]

/-- `f` on the four words of every lane: `mixRound` with any function in the place of QR. -/
def mapLanes (sel : Bool) (f : Quad → Quad) (X : Block) : Block :=
  [0, 1, 2, 3].foldl (fun Y j => laneWrite Y (laneIndex sel j) (f (laneRead X (laneIndex sel j)))) X

theorem mem_allLanes : ∀ j : Fin 4, j ∈ [0, 1, 2, 3] := by decide

theorem laneRead_mapLanes (sel : Bool) (f : Quad → Quad) (X : Block) (j : Fin 4) :
    laneRead (mapLanes sel f X) (laneIndex sel j) = f (laneRead X (laneIndex sel j)) :=
  (laneRead_foldl_laneWrite sel _ j _ X).trans (if_pos (mem_allLanes j))

theorem mapLanes_leftInverse (sel : Bool) {f g : Quad → Quad} (h : Function.LeftInverse g f) :
    Function.LeftInverse (mapLanes sel g) (mapLanes sel f) := by
  intro X
  apply block_ext_lanes sel
  intro j
  rw [laneRead_mapLanes, laneRead_mapLanes, h]

theorem mapLanes_bijective (sel : Bool) {f : Quad → Quad} (h : Function.Bijective f) :
    Function.Bijective (mapLanes sel f) := by
  obtain ⟨g, left, right⟩ := Function.bijective_iff_has_inverse.mp h
  exact Function.bijective_iff_has_inverse.mpr
    ⟨mapLanes sel g, mapLanes_leftInverse sel left, mapLanes_leftInverse sel right⟩

/-! ### A round (R143, R144, R147) -/

theorem mixRound_eq_mapLanes (sel : Bool) : mixRound sel = mapLanes sel fun q => qr q.a q.b q.c q.d := rfl

theorem laneRead_mixRound (sel : Bool) (X : Block) (j : Fin 4) :
    laneRead (mixRound sel X) (laneIndex sel j) = laneQr sel X j := by
  rw [mixRound_eq_mapLanes, laneRead_mapLanes, laneQr]

theorem ite_diaground_colround (sel : Bool) (X : Block) :
    (if sel then diaground X else colround X) = mixRound sel X := by
  cases sel <;> rfl

/-- Settles O38: the lanes by `laneRead_mixRound`, the two finite tables by evaluation. -/
theorem roundsAreLaneByLaneQuarterRounds : Obligations.RoundsAreLaneByLaneQuarterRounds := by
  refine ⟨?lanes, ?column, ?diagonal, ?partition⟩
  case lanes =>
    intro sel j X
    rw [ite_diaground_colround]
    exact laneRead_mixRound sel X j
  case column => decide
  case diagonal => decide
  case partition => decide

theorem mixInOrder_cons (sel : Bool) (j : Fin 4) (rest : List (Fin 4)) (X : Block) :
    mixInOrder sel (j :: rest) X = mixInOrder sel rest (mixLane sel X j) := rfl

/-- A lane's turn in place comes once and reads what the block held at first, as no other lane's turn reaches its words. -/
theorem laneRead_mixInOrder (sel : Bool) (k : Fin 4) {order : List (Fin 4)} (once : order.Nodup) (X : Block) :
    laneRead (mixInOrder sel order X) (laneIndex sel k) =
      if k ∈ order then laneQr sel X k else laneRead X (laneIndex sel k) := by
  induction order generalizing X with
  | nil => rfl
  | cons j rest ih =>
    obtain ⟨notLater, restOnce⟩ := List.nodup_cons.mp once
    rw [mixInOrder_cons, ih restOnce]
    by_cases same : k = j
    · subst same
      simp [notLater, mixLane, laneRead_laneWrite]
    · have untouched : laneRead (mixLane sel X j) (laneIndex sel k) = laneRead X (laneIndex sel k) := by
        rw [mixLane, laneRead_laneWrite, if_neg same]
      simp [same, laneQr, untouched]

/-- Settles O39: in place or side by side, in any order, each lane ends as QR of its words before the round. -/
theorem laneOrderDoesNotMatter : Obligations.LaneOrderDoesNotMatter := by
  intro sel order X perm
  have once : order.Nodup := perm.nodup_iff.mpr (by decide)
  rw [ite_diaground_colround]
  apply block_ext_lanes sel
  intro j
  rw [laneRead_mixInOrder sel j once, if_pos (perm.mem_iff.mpr (mem_allLanes j)), laneRead_mixRound]

/-! ### Rounds composed (R146, R148) -/

theorem roundFn_even (n : Nat) : roundFn (2 * n) = colround := by
  funext X
  exact if_pos (by omega)

theorem roundFn_odd (n : Nat) : roundFn (2 * n + 1) = diaground := by
  funext X
  exact if_neg (by omega)

theorem doubleround_eq_comp : doubleround = diaground ∘ colround := by
  funext X
  rw [doubleround, Function.comp_apply]

theorem roundsFn_two_mul (X : Block) (n : Nat) : roundsFn X (2 * n) = doubleround^[n] X := by
  induction n with
  | zero => rfl
  | succ n ih =>
    rw [Nat.mul_succ, roundsFn, roundsFn, roundFn_odd, roundFn_even, ih, Function.iterate_succ_apply', doubleround]

/-- Settles O40: each function delivers its definition's words, and rounds pair up into double rounds. -/
theorem roundFunctionsComplete : Obligations.RoundFunctionsComplete := by
  refine ⟨?round, ?doubleround, ?rounds, fun _ => rfl, fun _ _ => rfl, fun X => roundsFn_two_mul X 10⟩
  case round =>
    exact fun k X s => ⟨_, exec_round s k X, by rw [deliver_result, roundFn], deliver_frame _ s⟩
  case doubleround =>
    exact fun X s => ⟨_, exec_doubleround s X, by rw [deliver_result, doubleround], deliver_frame _ s⟩
  case rounds => exact fun X n s => ⟨_, exec_rounds s X n, deliver_result s _, deliver_frame _ s⟩

/-! ### Bijections that keep the all-zero state (R150) -/

/-- What R150 says of each round function. -/
def BijectiveAtZero (f : Block → Block) : Prop :=
  Function.Bijective f ∧ f (Vector.replicate 16 0) = Vector.replicate 16 0

theorem bijectiveAtZero_id : BijectiveAtZero id := ⟨Function.bijective_id, rfl⟩

theorem BijectiveAtZero.comp {f g : Block → Block} (hg : BijectiveAtZero g) (hf : BijectiveAtZero f) :
    BijectiveAtZero (g ∘ f) :=
  ⟨hg.1.comp hf.1, (congrArg g hf.2).trans hg.2⟩

theorem laneRead_zero (l : Lane) : laneRead (Vector.replicate 16 0) l = ⟨0, 0, 0, 0⟩ := by
  simp [laneRead]

theorem mixRound_zero (sel : Bool) : mixRound sel (Vector.replicate 16 0) = Vector.replicate 16 0 := by
  apply block_ext_lanes sel
  intro j
  rw [laneRead_mixRound, laneQr, laneRead_zero]
  decide

/-- QR is a bijection on each lane, and takes four zero words to four zero words. -/
theorem bijectiveAtZero_mixRound (sel : Bool) : BijectiveAtZero (mixRound sel) := by
  refine ⟨?bijective, mixRound_zero sel⟩
  rw [mixRound_eq_mapLanes]
  exact mapLanes_bijective sel quarterRoundIsABijection.1

theorem bijectiveAtZero_colround : BijectiveAtZero colround := bijectiveAtZero_mixRound false

theorem bijectiveAtZero_diaground : BijectiveAtZero diaground := bijectiveAtZero_mixRound true

theorem bijectiveAtZero_doubleround : BijectiveAtZero doubleround := by
  rw [doubleround_eq_comp]
  exact bijectiveAtZero_diaground.comp bijectiveAtZero_colround

theorem bijectiveAtZero_roundFn (k : Nat) : BijectiveAtZero (roundFn k) := by
  obtain ⟨n, rfl | rfl⟩ := k.even_or_odd'
  · rw [roundFn_even]
    exact bijectiveAtZero_colround
  · rw [roundFn_odd]
    exact bijectiveAtZero_diaground

theorem bijectiveAtZero_roundsFn (n : Nat) : BijectiveAtZero (roundsFn · n) := by
  induction n with
  | zero => exact bijectiveAtZero_id
  | succ n ih => exact (bijectiveAtZero_roundFn n).comp ih

/-- Settles O41: one round by its lanes, the others as compositions of rounds. -/
theorem roundFunctionsAreBijections : Obligations.RoundFunctionsAreBijections :=
  ⟨bijectiveAtZero_colround, bijectiveAtZero_diaground, bijectiveAtZero_roundFn, bijectiveAtZero_doubleround,
    bijectiveAtZero_roundsFn⟩

end Sys2Proof.Machine
end

section
/-! PROOFS. 43_block_transform: COPY, the ENGINE's two steps, BLOCK, and a transform under every interleaving. -/

namespace Sys2Proof.Machine

/-- Settles O42: COPY's update writes W alone. -/
theorem copyFillsTheWorkingRegisters : Obligations.CopyFillsTheWorkingRegisters :=
  fun s => ⟨copyState s, exec_copy s, fun i => congrArg (·[i]) (copyState_W s), copyState_S s, copyState_OUT s,
    ⟨rfl, rfl, rfl⟩, ⟨rfl, rfl⟩, ⟨rfl, rfl, rfl, rfl⟩, rfl⟩

/-! ### E-ROUND and E-FINAL (R167, R168) -/

/-- Bit 0 of the counter tells a diagonal round from a column round (R167; 42_rounds_and_schedule R148). -/
theorem roundFn_rnd (r : BitVec 5) : roundFn r.toNat = if r.getLsbD 0 then diaground else colround := by
  have bit : r.getLsbD 0 = decide (r.toNat % 2 = 1) := Nat.testBit_zero r.toNat
  funext X
  rw [roundFn, bit]
  obtain even | odd := Nat.mod_two_eq_zero_or_one r.toNat
  · simp [even]
  · simp [odd]

theorem exec_eRound_roundFn {s : State} (hb : s.BUSY = true) (lt : s.rnd.toNat < 20) :
    exec .eRound s = .next (applyRound (roundFn s.rnd.toNat) s) := by
  rw [exec_eRound_enabled hb lt, roundFn_rnd]
  cases s.rnd.getLsbD 0 <;> rfl

/-- Settles O27: E-ROUND applies `roundFn` at the counter, which bit 0 of the counter chooses. -/
theorem eRoundMixesAndAdvances : Obligations.ERoundMixesAndAdvances := by
  intro s hb lt
  refine ⟨_, exec_eRound_roundFn hb lt, fun even => ?_, fun odd => ?_, rfl, rnd_succ s.rnd lt, rfl, rfl, hb, rfl,
    ⟨rfl, rfl⟩, ⟨rfl, rfl, rfl, rfl⟩, rfl⟩
  · rw [applyRound_W, roundFn_rnd, even, if_neg Bool.false_ne_true]
  · rw [applyRound_W, roundFn_rnd, if_pos odd]

theorem finaladd_get_toNat (X Y : Block) (i : Fin 16) :
    (finaladd X Y)[i].toNat = (X[i].toNat + Y[i].toNat) % 2 ^ 32 := by
  rw [finaladd_get, add32_toNat]

/-- Settles O28: E-FINAL performs `finishTransform`, whose OUT is added up word by word. -/
theorem eFinalAddsAndFinishes : Obligations.EFinalAddsAndFinishes :=
  fun s hb h20 => ⟨finishTransform s, exec_eFinal_enabled hb h20, finaladd_get_toNat s.S s.W, rfl, rfl, rfl, rfl, rfl,
    ⟨rfl, rfl⟩, ⟨rfl, rfl, rfl, rfl⟩, rfl⟩

/-! ### BLOCK (R164, R165) -/

/-- The additive property (R165): output minus input is the working state after twenty rounds. -/
theorem blockFn_sub (X : Block) (i : Fin 16) : (blockFn X)[i] - X[i] = (roundsFn X 20)[i] := by
  rw [blockFn, finaladd_get, add32_eq, BitVec.add_comm, BitVec.add_sub_cancel]

theorem finaladd_zero : finaladd (Vector.replicate 16 0) (Vector.replicate 16 0) = Vector.replicate 16 0 := by
  apply block_ext
  intro i
  rw [finaladd_get, add32_eq]
  simp

theorem blockFn_zero : blockFn (Vector.replicate 16 0) = Vector.replicate 16 0 := by
  have rounds_zero : roundsFn (Vector.replicate 16 0) 20 = Vector.replicate 16 0 := (bijectiveAtZero_roundsFn 20).2
  rw [blockFn, rounds_zero, finaladd_zero]

/-- Settles O43: the words of the final addition after twenty rounds, what stays by `deliver_frame`. -/
theorem blockAddsTheStateToTwentyRounds : Obligations.BlockAddsTheStateToTwentyRounds :=
  ⟨fun X s => ⟨_, blockFn X, exec_block s X, deliver_result s _, finaladd_get_toNat X (roundsFn X 20), deliver_frame _ s⟩,
    blockFn_sub, blockFn_zero⟩

/-! ### A transform under every interleaving (R169) -/

/-- The transform of `X` runs and its first `n` rounds are done. -/
structure RunsAtRound (X : Block) (n : Nat) (s : State) : Prop where
  transform : TransformOf X s
  busy : s.BUSY = true
  rnd : s.rnd.toNat = n

section
variable {X : Block} {n : Nat} {s : State} {us : List Turn}

/-- Of the model's own fields the transform needs neither the program nor the turns. -/
theorem RunsAtRound.with_agents (h : RunsAtRound X n s) (prog : List HostOp) (us : List Turn) :
    RunsAtRound X n { s with program := prog, turns := us } :=
  ⟨⟨h.transform.phase, h.transform.locked, h.transform.output⟩, h.busy, h.rnd⟩

/-- While the transform runs a host operation neither disturbs it nor moves the counter. -/
theorem RunsAtRound.of_hostEffect {t : State} (h : RunsAtRound X n s) (effect : hostEffect s t) : RunsAtRound X n t := by
  have transform : TransformOf X t := h.transform.of_hostEffect effect fun idle => by simp [h.busy] at idle
  obtain ⟨_, ⟨hr, hb, _⟩, _⟩ | ⟨idle, _⟩ | ⟨idle, _⟩ := effect
  · exact ⟨transform, hb.trans h.busy, hr ▸ h.rnd⟩
  · simp [h.busy] at idle
  · simp [h.busy] at idle

/-- A HOST turn while the transform runs: whatever the program has next, the transform is where it was. -/
theorem RunsAtRound.step_host (h : RunsAtRound X n s) (hu : s.turns = .host :: us) :
    ∃ t, step s = .next t ∧ RunsAtRound X n t ∧ t.turns = us := by
  cases hp : s.program with
  | nil =>
    have run := (step_of_turn s .host us hu).trans (hostTurn_of_nil { s with turns := us } hp)
    exact ⟨_, run, h.with_agents s.program us, rfl⟩
  | cons op rest =>
    obtain ⟨t, run, effect⟩ := exec_hostOp op { s with program := rest, turns := us }
    exact ⟨t, (step_of_host_turn s hu hp).trans run, (h.with_agents rest us).of_hostEffect effect, exec_turns run⟩

/-- An ENGINE turn before the twentieth round is done does the next one. -/
theorem RunsAtRound.step_engine (h : RunsAtRound X n s) (lt : n < 20) (hu : s.turns = .engine :: us) :
    ∃ t, step s = .next t ∧ RunsAtRound X (n + 1) t ∧ t.turns = us := by
  have hlt : s.rnd.toNat < 20 := h.rnd ▸ lt
  refine ⟨_, step_of_engine_round (nextTurn_of_cons hu) h.busy hlt, ⟨?_, h.busy, ?_⟩, congrArg List.tail hu⟩
  · exact h.transform.of_popTurn.of_applyRound h.busy hlt
  · exact (rnd_succ s.rnd hlt).trans (congrArg Nat.succ h.rnd)

/-- An ENGINE turn after the twentieth round ends the transform. -/
theorem RunsAtRound.step_final (h : RunsAtRound X 20 s) (hu : s.turns = .engine :: us) :
    ∃ t, step s = .next t ∧ t.S = X ∧ t.W = roundsFn X 20 ∧ t.OUT = blockFn X ∧ isFinished t ∧ t.rnd = 0 ∧
      t.turns = us := by
  obtain ⟨hS, hW, _, _⟩ := h.transform.locked h.busy
  obtain ⟨hO, _⟩ := (h.transform.of_popTurn.of_finishTransform h.busy h.rnd).output rfl
  exact ⟨_, step_of_engine_final (nextTurn_of_cons hu) h.busy h.rnd, hS, h.rnd ▸ hW, hO, ⟨rfl, rfl⟩, rfl,
    congrArg List.tail hu⟩

/-- Under an interleaving of HOST and ENGINE turns the rounds done go up by the number of ENGINE turns. -/
theorem RunsAtRound.runFor_turns {rest : List Turn} (h : RunsAtRound X n s) (hu : s.turns = us ++ rest)
    (quiet : noReset us) (hn : n + us.count .engine ≤ 20) :
    ∃ t, runFor us.length s = .next t ∧ RunsAtRound X (n + us.count .engine) t ∧ t.turns = rest := by
  induction us generalizing n s with
  | nil => exact ⟨s, rfl, h, hu⟩
  | cons u us ih =>
    obtain ⟨hne, quiet'⟩ : Turn.reset ≠ u ∧ noReset us := List.ne_and_not_mem_of_not_mem_cons quiet
    rw [List.length_cons]
    cases u with
    | reset => exact absurd rfl hne
    | host =>
      obtain ⟨t, ht, hs, hturns⟩ := h.step_host hu
      rw [List.count_cons_of_ne (by decide)] at hn ⊢
      rw [runFor_of_step us.length ht]
      exact ih hs hturns quiet' hn
    | engine =>
      have shift : n + (us.count .engine + 1) = n + 1 + us.count .engine := by omega
      rw [List.count_cons_self, shift] at hn ⊢
      obtain ⟨t, ht, hs, hturns⟩ := h.step_engine (by omega) hu
      rw [runFor_of_step us.length ht]
      exact ih hs hturns quiet' hn

end

theorem StartedOn.runsAtRound {X : Block} {s : State} (h : StartedOn X s) : RunsAtRound X 0 s :=
  ⟨h.transform, h.busy, congrArg BitVec.toNat h.rnd⟩

/-- Settles O55: START, then twenty rounds by `RunsAtRound.runFor_turns`, then the final addition. -/
theorem transformUnderEveryInterleaving : Obligations.TransformUnderEveryInterleaving := by
  intro s prog us rest hb hp hu quiet count
  obtain ⟨s₁, h₁, hs₁, _, _, hu₁⟩ := step_start hu hp decodeBus_start hb
  obtain ⟨s₂, h₂, hs₂, hu₂⟩ := hs₁.runsAtRound.runFor_turns hu₁ quiet (by omega)
  rw [count] at hs₂
  obtain ⟨t, h₃, ht⟩ := hs₂.step_final hu₂
  rw [runFor_of_step (us.length + 1) h₁, runFor_add us.length 1 s₁ s₂ h₂, runFor_of_step 0 h₃]
  exact ⟨t, rfl, ht⟩

end Sys2Proof.Machine
end

section
/-! PROOFS. 44_endianness: the bytes of a swapped word, and the swap undone by itself. -/

namespace Sys2Proof.Machine

/-- A word is the word of its own wire bytes (20_memory R52): neighbouring slices join. -/
theorem wireWord_extractLsb' (w : Word) :
    wireWord (w.extractLsb' 0 8) (w.extractLsb' 8 8) (w.extractLsb' 16 8) (w.extractLsb' 24 8) = w := by
  rw [wireWord, BitVec.extractLsb'_append_extractLsb'_eq_extractLsb' (by decide),
    BitVec.extractLsb'_append_extractLsb'_eq_extractLsb' (by decide),
    BitVec.extractLsb'_append_extractLsb'_eq_extractLsb' (by decide)]
  exact BitVec.extractLsb'_eq_self

/-- R180's second form: byte `k` of the swapped word is byte `3 - k` of the word, the top byte first. -/
theorem bswap32_bytes (w : Word) :
    (bswap32 w).extractLsb' 24 8 = w.extractLsb' 0 8 ∧ (bswap32 w).extractLsb' 16 8 = w.extractLsb' 8 8 ∧
    (bswap32 w).extractLsb' 8 8 = w.extractLsb' 16 8 ∧ (bswap32 w).extractLsb' 0 8 = w.extractLsb' 24 8 := by
  obtain ⟨h0, h1, h2, h3⟩ :=
    wireWord_bytes (w.extractLsb' 24 8) (w.extractLsb' 16 8) (w.extractLsb' 8 8) (w.extractLsb' 0 8)
  rw [bswap32_eq_wireWord]
  exact ⟨h3, h2, h1, h0⟩

/-- R181: the second swap takes the bytes of the first, which are the word's own turned around. -/
theorem bswap32_bswap32 (w : Word) : bswap32 (bswap32 w) = w := by
  obtain ⟨h3, h2, h1, h0⟩ := bswap32_bytes w
  rw [bswap32_eq_wireWord (bswap32 w), h3, h2, h1, h0, wireWord_extractLsb']

/-- Settles O44: the four bytes by `bswap32_bytes`, what stays by `deliver_frame`, the involution by `bswap32_bswap32`. -/
theorem byteSwapReversesAndInverts : Obligations.ByteSwapReversesAndInverts := by
  intro w s
  obtain ⟨h3, h2, h1, h0⟩ := bswap32_bytes w
  exact ⟨⟨_, bswap32 w, exec_bswap32 s w, deliver_result s _, h3, h2, h1, h0, deliver_frame _ s⟩, bswap32_bswap32 w⟩

end Sys2Proof.Machine
end

section
/-! PROOFS. 45_host_commands: what each command returns, stores and records, and what it leaves as it was. -/

namespace Sys2Proof.Machine

/-! ### The two updates commands are made of: a word returned, a violation recorded -/

section
variable (s : State)

/-- Recording a violation fills the record in and touches nothing else (60_exceptions R221). -/
theorem raiseViolation_frame (c : Violation) :
    recordsViolation c.code s (raiseViolation c s) ∧ keepsData s (raiseViolation c s) ∧
      keepsSequencer s (raiseViolation c s) ∧ keepsAgents s (raiseViolation c s) ∧ received [] s (raiseViolation c s) :=
  ⟨⟨raiseViolation_ERR s c, raiseViolation_CAUSE s c⟩,
    ⟨raiseViolation_S s c, raiseViolation_W s c, raiseViolation_OUT s c⟩,
    ⟨raiseViolation_rnd s c, raiseViolation_BUSY s c, raiseViolation_DONE s c⟩,
    ⟨raiseViolation_result s c, raiseViolation_program s c, raiseViolation_turns s c, raiseViolation_draws s c⟩,
    raiseViolation_responses s c⟩

/-- The same for a read that records a violation: the host also receives the word. -/
theorem raiseViolation_respond_frame (c : Violation) (v : Word) :
    received [v] s (raiseViolation c (respond v s)) ∧ recordsViolation c.code s (raiseViolation c (respond v s)) ∧
      keepsData s (raiseViolation c (respond v s)) ∧ keepsSequencer s (raiseViolation c (respond v s)) ∧
      keepsAgents s (raiseViolation c (respond v s)) := by
  obtain ⟨record, data, seq, agents, response⟩ := raiseViolation_frame (respond v s) c
  exact ⟨response, record, data, seq, agents⟩

/-- Returning a word to the host changes nothing else. -/
theorem respond_frame (v : Word) :
    received [v] s (respond v s) ∧ keepsEngine s (respond v s) ∧ keepsAgents s (respond v s) :=
  ⟨rfl, keepsEngine_respond v s, rfl, rfl, rfl, rfl⟩

end

/-! ### STATE (R190, R191) -/

/-- Settles O12: the write is stored or is the violation, and the frame is that of the one or the other. -/
theorem wrStateStoresUnlessBusy : Obligations.WrStateStoresUnlessBusy := by
  intro i v s
  refine ⟨decodeBus_state true i v, _, exec_wrState s i v, ?_⟩
  obtain ⟨hb, e⟩ | ⟨hb, e⟩ := writeStateReg_cases i v s <;> rw [e]
  · refine ⟨rfl, rfl, ⟨rfl, rfl, rfl⟩, ⟨rfl, rfl, rfl, rfl⟩, rfl, fun _ => ⟨?_, fun j hj => ?_, rfl, rfl⟩, by simp [hb]⟩
    · rw [set_get, if_pos rfl]
    · rw [set_get, if_neg hj]
  · obtain ⟨record, ⟨hS, hW, hO⟩, seq, agents, response⟩ := raiseViolation_frame s .wrStateBusy
    exact ⟨hW, hO, seq, agents, response, by simp [hb], fun _ => ⟨hS, record⟩⟩

/-- Settles O13: RD_STATE's only update is the word returned. -/
theorem rdStateReturnsTheRegister : Obligations.RdStateReturnsTheRegister :=
  fun i s => ⟨decodeBus_state false i, _, exec_rdState s i, respond_frame s s.S[i]⟩

/-! ### OUT (R192) -/

/-- Settles O14: the read returns the result or is the violation, and the frame is that of the one or the other. -/
theorem rdOutReturnsTheResultOnceDone : Obligations.RdOutReturnsTheResultOnceDone := by
  intro i s
  refine ⟨decodeBus_out false i, _, exec_rdOut s i, ?_⟩
  obtain ⟨hd, e⟩ | ⟨hd, e⟩ := readOutReg_cases i s <;> rw [e]
  · obtain ⟨response, ⟨data, seq, record⟩, agents⟩ := respond_frame s s.OUT[i]
    exact ⟨data, seq, agents, fun _ => ⟨response, record⟩, by simp [hd]⟩
  · obtain ⟨response, record, data, seq, agents⟩ := raiseViolation_respond_frame s .rdOutNotDone 0
    exact ⟨data, seq, agents, by simp [hd], fun _ => ⟨response, record⟩⟩

/-! ### CTRL (R193, R194, R195) -/

/-- Settles O15: a START is accepted or is the violation, and the frame is that of the one or the other. -/
theorem startCopiesAndRunsUnlessBusy : Obligations.StartCopiesAndRunsUnlessBusy := by
  intro s
  refine ⟨fun v hv => ?_, by decide, _, exec_start s, ?_⟩
  · rw [decodeBus_ctrl, if_pos rfl, if_pos hv]
  obtain ⟨hb, e⟩ | ⟨hb, e⟩ := startTransform_cases s <;> rw [e]
  · exact ⟨rfl, rfl, ⟨rfl, rfl, rfl, rfl⟩, rfl, fun _ => ⟨fun _ => rfl, rfl, rfl, rfl, rfl, rfl⟩, by simp [hb]⟩
  · obtain ⟨record, ⟨hS, hW, hO⟩, seq, agents, response⟩ := raiseViolation_frame s .startBusy
    exact ⟨hS, hO, agents, response, by simp [hb], fun _ => ⟨hW, seq, record⟩⟩

/-- Settles O16: WR_CTRL_NOP has no update, RD_CTRL's is the word 0 returned. -/
theorem ctrlNopAndCtrlRead : Obligations.CtrlNopAndCtrlRead := by
  refine fun s => ⟨fun v hv => ?_, exec_wrCtrlNop s, decodeBus_ctrl false, _, exec_rdCtrl s, respond_frame s 0⟩
  rw [decodeBus_ctrl, if_pos rfl, hv, if_neg Bool.false_ne_true]

/-! ### STATUS, and the writes that are violation 4 (R196, R197, R198) -/

/-- Settles O17: the STATUS word is returned, whose number is `statusWord_toNat`. -/
theorem rdStatusReturnsTheFlags : Obligations.RdStatusReturnsTheFlags := by
  intro s
  obtain ⟨response, engine, agents⟩ := respond_frame s (statusWord s)
  exact ⟨decodeBus_status false, _, _, exec_rdStatus s, response, statusWord_toNat s, engine, agents⟩

/-- Settles O18: the only update of either write is the violation. -/
theorem readOnlyWritesAreViolation4 : Obligations.ReadOnlyWritesAreViolation4 :=
  fun i v s => ⟨decodeBus_out true i v, decodeBus_status true v, ⟨_, exec_wrOut s i v, raiseViolation_frame s .wrReadOnly⟩,
    _, exec_wrStatus s v, raiseViolation_frame s .wrReadOnly⟩

/-! ### Reserved addresses (R199, R200) -/

/-- Settles O19: either access records the violation, after the word 0 is returned if it is a read. -/
theorem reservedAccessesAreViolation5 : Obligations.ReservedAccessesAreViolation5 := by
  intro a v s ha
  obtain ⟨record, data, seq, agents, response⟩ := raiseViolation_frame s .reservedAddr
  exact ⟨decodeBus_reserved false a v ha, decodeBus_reserved true a v ha,
    ⟨_, exec_rdRsvd s a, raiseViolation_respond_frame s .reservedAddr 0⟩,
    _, exec_wrRsvd s a v, response, record, data, seq, agents⟩

end Sys2Proof.Machine
end

section
/-! PROOFS. 45_host_commands: the canonical sequences (R202; 70_reset_and_hazards R257). -/

namespace Sys2Proof.Machine

/-! ### The host's program, read from its end -/

/-- With `S` as it is and no transform running, the program's writes leave `X` in S and then it is RUNBLOCK. The three kinds
of write are one: each stores a word and issues further operations, which may be none. -/
inductive LoadsThenRuns (X : Block) : List HostOp → Block → Prop where
  | run : LoadsThenRuns X [.runblock] X
  | write {op : HostOp} {i : Fin 16} {v : Word} {ops rest : List HostOp} {S : Block}
      (exec_op : ∀ s, exec op.instr s = .next (writeStateReg i v (issue ops s)))
      (next : LoadsThenRuns X (ops ++ rest) (S.set i v)) : LoadsThenRuns X (op :: rest) S

/-- With `OUT = Y` and a result ready, the program's reads leave the words of `Y` as the last sixteen the host receives, after
the responses `rs` it has already. -/
inductive ReadsOut (Y : Block) : List HostOp → List Word → Prop where
  | finished {rs : List Word} (last : rs.take 16 = Y.toList.reverse) : ReadsOut Y [] rs
  | poll {rest : List HostOp} {rs : List Word} (next : ∀ w, ReadsOut Y rest (w :: rs)) : ReadsOut Y (.poll :: rest) rs
  | read {op : HostOp} {i : Fin 16} {ops rest : List HostOp} {rs : List Word}
      (exec_op : ∀ s, exec op.instr s = .next (readOutReg i (issue ops s)))
      (next : ReadsOut Y (ops ++ rest) (Y[i] :: rs)) : ReadsOut Y (op :: rest) rs

theorem exec_write_command (i : Fin 16) (v : Word) (s : State) :
    exec (HostOp.command (assemble (.wrState i v))).instr s = .next (writeStateReg i v (issue [] s)) :=
  congrArg (exec · s) (decodeBus_state true i v)

theorem exec_read_command (i : Fin 16) (s : State) :
    exec (HostOp.command (assemble (.rdOut i))).instr s = .next (readOutReg i (issue [] s)) :=
  congrArg (exec · s) (decodeBus_out false i 0)

theorem loadsThenRuns_writes (ws : Block) (is : List (Fin 16)) (S : Block) :
    LoadsThenRuns (storeWords ws is S) (is.map (fun i => .command (assemble (.wrState i ws[i]))) ++ [.runblock]) S := by
  induction is generalizing S with
  | nil => exact .run
  | cons i is ih => exact .write (exec_write_command i ws[i]) (ih (S.set i ws[i]))

theorem loadsThenRuns_loadstate (ws S : Block) : LoadsThenRuns ws [.loadstate ws, .runblock] S := by
  have writes := loadsThenRuns_writes ws laterIndices (S.set (0 : Fin 16) ws[(0 : Fin 16)])
  rw [show storeWords ws laterIndices _ = ws from storeWords_allIndices ws S] at writes
  exact .write (fun s => exec_loadstate s ws) writes

theorem loadsThenRuns_setctr (c : Word) (S : Block) : LoadsThenRuns (S.set 12 c) [.setctr c, .runblock] S :=
  .write (i := 12) (ops := []) (fun s => exec_setctr s c) .run

theorem readsOut_reads {Y : Block} (is : List (Fin 16)) {rs : List Word}
    (last : ((is.map fun i => Y[i]).reverse ++ rs).take 16 = Y.toList.reverse) :
    ReadsOut Y (is.map fun i => .command (assemble (.rdOut i))) rs := by
  induction is generalizing rs with
  | nil => exact .finished last
  | cons i is ih => exact .read (exec_read_command i) (ih (by simpa using last))

theorem readsOut_readout (Y : Block) (rs : List Word) : ReadsOut Y [.readout] rs := by
  refine .read exec_readout ?_
  rw [List.append_nil]
  refine readsOut_reads laterIndices ?_
  have all : (laterIndices.map fun i => Y[i]).reverse ++ Y[(0 : Fin 16)] :: rs = Y.toList.reverse ++ rs := by
    rw [← map_allIndices Y, List.map_cons, List.reverse_cons, List.append_assoc, List.singleton_append]
  rw [all]
  exact List.take_left' (by simp)

/-! ### Where the sequence stands -/

/-- The transform of `X` is over: `S = X`, and OUT holds the block. -/
structure HoldsBlock (X : Block) (s : State) : Prop where
  finished : isFinished s
  stateRegs : s.S = X
  output : s.OUT = blockFn X

/-- The three stages of a canonical sequence for `X`: before the START, while the transform runs, after it. -/
inductive CanonicalStage (X : Block) (s : State) : Prop where
  | loading (idle : s.BUSY = false) (prog : LoadsThenRuns X s.program s.S)
  | running (transform : TransformOf X s) (busy : s.BUSY = true) (prog : s.program = [.poll, .readout])
  | reading (holds : HoldsBlock X s) (prog : ReadsOut (blockFn X) s.program s.responses)

/-- The invariant of R202 and R257: no violation is recorded, no RESET is to come, and the sequence stands at a stage. -/
structure CanonicalInv (X : Block) (s : State) : Prop where
  clean : s.ERR = false
  quiet : noReset s.turns
  stage : CanonicalStage X s

/-! ### A HOST's step at each stage -/

section
variable {X : Block} {s t : State} {op : HostOp} {rest : List HostOp}

/-- Before the START the host's next operation is a write, which is stored, or RUNBLOCK, whose START is accepted. -/
theorem LoadsThenRuns.stage_of_exec (h : LoadsThenRuns X (op :: rest) s.S) (idle : s.BUSY = false)
    (run : exec op.instr { s with program := rest } = .next t) : t.ERR = s.ERR ∧ CanonicalStage X t := by
  generalize hS : s.S = S at h
  generalize hp : op :: rest = prog at h
  cases h with
  | run =>
    obtain ⟨rfl, rfl⟩ := List.cons.inj hp
    obtain rfl := Host.Outcome.next.inj run
    have transform := TransformOf.of_startTransform (issue [.poll, .readout] { s with program := [] }) idle
    exact ⟨by simp [idle], .running (hS ▸ transform) (by simp) (by simp)⟩
  | write exec_op next =>
    obtain ⟨rfl, rfl⟩ := List.cons.inj hp
    rw [exec_op] at run
    obtain rfl := Host.Outcome.next.inj run
    exact ⟨by simp [idle], .loading (by simpa using idle) (by simpa [idle, hS] using next)⟩

/-- While the transform runs the host reads STATUS and has POLL in front again. -/
theorem stage_of_poll_running (transform : TransformOf X s) (busy : s.BUSY = true)
    (run : exec .poll { s with program := [.readout] } = .next t) : t.ERR = s.ERR ∧ CanonicalStage X t := by
  obtain ⟨-, -, -, hd⟩ := transform.locked busy
  rw [exec_poll, if_neg (Bool.not_eq_true _ ▸ hd)] at run
  obtain rfl := Host.Outcome.next.inj run
  exact ⟨rfl, .running ⟨transform.phase, transform.locked, transform.output⟩ busy rfl⟩

/-- After the transform the host's next operation reads STATUS or a word of the block. -/
theorem ReadsOut.stage_of_exec (h : ReadsOut (blockFn X) (op :: rest) s.responses) (holds : HoldsBlock X s)
    (run : exec op.instr { s with program := rest } = .next t) : t.ERR = s.ERR ∧ CanonicalStage X t := by
  obtain ⟨⟨hb, hd⟩, hS, hO⟩ := holds
  generalize hr : s.responses = rs at h
  cases h with
  | poll next =>
    rw [HostOp.instr, exec_poll, if_pos hd] at run
    obtain rfl := Host.Outcome.next.inj run
    exact ⟨rfl, .reading ⟨⟨hb, hd⟩, hS, hO⟩ (hr ▸ next _)⟩
  | read exec_op next =>
    rw [exec_op] at run
    obtain rfl := Host.Outcome.next.inj run
    refine ⟨by simp [hd], .reading ⟨⟨by simpa using hb, by simpa using hd⟩, by simpa using hS, by simpa using hO⟩ ?_⟩
    simpa [outGated, hd, hO, hr] using next

/-- A HOST's step at any stage keeps the record and leads to a stage. -/
theorem CanonicalStage.of_exec (h : CanonicalStage X s) (hp : s.program = op :: rest)
    (run : exec op.instr { s with program := rest } = .next t) : t.ERR = s.ERR ∧ CanonicalStage X t := by
  cases h with
  | loading idle prog => exact LoadsThenRuns.stage_of_exec (hp ▸ prog) idle run
  | running transform busy prog =>
    obtain ⟨rfl, rfl⟩ := List.cons.inj (hp.symm.trans prog)
    exact stage_of_poll_running transform busy run
  | reading holds prog => exact ReadsOut.stage_of_exec (hp ▸ prog) holds run

end

/-! ### Every step, and every run -/

section
variable {X : Block} {s : State}

theorem CanonicalStage.of_popTurn (h : CanonicalStage X s) : CanonicalStage X (popTurn s) := by
  cases h with
  | loading idle prog => exact .loading idle prog
  | running transform busy prog => exact .running transform.of_popTurn busy prog
  | reading holds prog => exact .reading ⟨holds.finished, holds.stateRegs, holds.output⟩ prog

/-- While BUSY a sequence is at its middle stage. -/
theorem CanonicalStage.of_busy (h : CanonicalStage X s) (busy : s.BUSY = true) :
    TransformOf X s ∧ s.program = [.poll, .readout] := by
  cases h with
  | loading idle => simp [busy] at idle
  | running transform _ prog => exact ⟨transform, prog⟩
  | reading holds =>
    obtain ⟨idle, -⟩ := holds.finished
    simp [busy] at idle

theorem CanonicalStage.of_applyRound (h : CanonicalStage X s) (busy : s.BUSY = true) (lt : s.rnd.toNat < 20) :
    CanonicalStage X (applyRound (roundFn s.rnd.toNat) s) := by
  obtain ⟨transform, prog⟩ := h.of_busy busy
  exact .running (transform.of_applyRound busy lt) busy prog

theorem CanonicalStage.of_finishTransform (h : CanonicalStage X s) (busy : s.BUSY = true) (h20 : s.rnd.toNat = 20) :
    CanonicalStage X (finishTransform s) := by
  obtain ⟨transform, prog⟩ := h.of_busy busy
  obtain ⟨hS, -⟩ := transform.locked busy
  obtain ⟨hO, -⟩ := (transform.of_finishTransform busy h20).output rfl
  refine .reading ⟨⟨rfl, rfl⟩, hS, hO⟩ ?_
  rw [finishTransform_program, prog]
  exact .poll fun w => readsOut_readout (blockFn X) (w :: s.responses)

/-- The default of log entry 4 never gives RESET a turn. -/
theorem nextTurn_ne_reset (h : noReset s.turns) : nextTurn s ≠ .reset := by
  unfold nextTurn
  split
  · split <;> decide
  next u us hu => exact fun e => h (hu ▸ e ▸ List.mem_cons_self)

theorem noReset_tail {us : List Turn} (h : noReset us) : noReset us.tail := mt List.mem_of_mem_tail h

theorem CanonicalInv.of_step {t : State} (h : CanonicalInv X s) (run : step s = .next t) : CanonicalInv X t := by
  obtain ⟨clean, quiet, stage⟩ := h
  have quiet' := noReset_tail quiet
  cases stepTo_of_step run with
  | idle => exact ⟨clean, quiet', stage.of_popTurn⟩
  | host _ prog run =>
    obtain ⟨he, stage'⟩ := stage.of_popTurn.of_exec prog run
    exact ⟨he.trans clean, exec_turns run ▸ quiet', stage'⟩
  | round _ busy lt => exact ⟨clean, quiet', stage.of_popTurn.of_applyRound busy lt⟩
  | final _ busy h20 => exact ⟨clean, quiet', stage.of_popTurn.of_finishTransform busy h20⟩
  | reset turn => exact absurd turn (nextTurn_ne_reset quiet)

/-- What every step keeps, a run keeps. -/
theorem runFor_keeps {P : State → Prop} (keeps : ∀ s t, P s → step s = .next t → P t) {n : Nat} {t : State}
    (hs : P s) (run : runFor n s = .next t) : P t := by
  induction n generalizing s with
  | zero => exact Host.Outcome.next.inj run ▸ hs
  | succ n ih =>
    rw [runFor] at run
    split at run
    next u hu => exact ih (keeps s u hs hu) run
    next => cases run
    next => cases run

/-- A sequence whose program is finished has read the block. -/
theorem CanonicalStage.of_finished_program (h : CanonicalStage X s) (hp : s.program = []) :
    s.responses.take 16 = (blockFn X).toList.reverse ∧ s.S = X ∧ s.OUT = blockFn X := by
  cases h with
  | loading _ prog =>
    rw [hp] at prog
    cases prog
  | running _ _ prog =>
    rw [hp] at prog
    cases prog
  | reading holds prog =>
    rw [hp] at prog
    cases prog with
    | finished last => exact ⟨last, holds.stateRegs, holds.output⟩

/-- From a state in which the program loads `X` and runs, every run is clean and, once finished, has read the block. -/
theorem runFor_canonical {n : Nat} {t : State} (idle : s.BUSY = false) (clean : s.ERR = false) (quiet : noReset s.turns)
    (prog : LoadsThenRuns X s.program s.S) (run : runFor n s = .next t) :
    t.ERR = false ∧ (t.program = [] →
      t.responses.take 16 = (blockFn X).toList.reverse ∧ t.S = X ∧ t.OUT = blockFn X) := by
  obtain ⟨clean', -, stage⟩ :=
    runFor_keeps (P := CanonicalInv X) (fun _ _ => CanonicalInv.of_step) ⟨clean, quiet, .loading idle prog⟩ run
  exact ⟨clean', stage.of_finished_program⟩

end

/-- Settles O56: both programs load their block and run, and `CanonicalInv` holds along every run from there. -/
theorem canonicalSequenceIsCleanAndCorrect : Obligations.CanonicalSequenceIsCleanAndCorrect := by
  refine ⟨fun ws n s t hb he hp quiet run => ?_, fun c n s t hb he hp quiet run => ?_⟩
  · exact runFor_canonical hb he quiet (hp ▸ loadsThenRuns_loadstate ws s.S) run
  · exact runFor_canonical hb he quiet (hp ▸ loadsThenRuns_setctr c s.S) run

end Sys2Proof.Machine
end

section
/-! PROOFS. 60_exceptions: what an operation can do to the violation record. -/

namespace Sys2Proof.Machine

/-- The table of 60_exceptions R222: operation `i` in state `s` commits the violation. A pseudo-instruction stands with the
command it performs first (log entry 13). -/
def commits (i : Instr) (s : State) : Violation → Prop
  | .wrStateBusy => s.BUSY = true ∧ ((∃ j v, i = .wrState j v) ∨ (∃ ws, i = .loadstate ws) ∨ ∃ c, i = .setctr c)
  | .startBusy => s.BUSY = true ∧ (i = .start ∨ i = .runblock)
  | .rdOutNotDone => s.DONE = false ∧ ((∃ j, i = .rdOut j) ∨ i = .readout)
  | .wrReadOnly => (∃ j v, i = .wrOut j v) ∨ ∃ v, i = .wrStatus v
  | .reservedAddr => (∃ a, i = .rdRsvd a) ∨ ∃ a v, i = .wrRsvd a v

/-- Once, what an operation can do to the violation record, and what the rest of the engine is where it records one. -/
inductive RecordEffect (i : Instr) (s t : State) : Prop where
  | kept (record : keepsRecord s t)
  | violation (c : Violation) (table : commits i s c) (record : recordsViolation c.code s t) (data : keepsData s t)
      (seq : keepsSequencer s t)
  | cleared (op : i = .reset) (err : t.ERR = false) (cause : t.CAUSE = 0)

section
variable {i : Instr} {s : State}

theorem keepsEngine_issue (ops : List HostOp) (s : State) : keepsEngine s (issue ops s) :=
  ⟨⟨rfl, rfl, rfl⟩, ⟨rfl, rfl, rfl⟩, rfl, rfl⟩

theorem keepsRecord_ite {t u : State} (p : Prop) [Decidable p] (ht : keepsRecord s t) (hu : keepsRecord s u) :
    keepsRecord s (if p then t else u) := by
  split
  · exact ht
  · exact hu

theorem keepsRecord_respond (v : Word) (s : State) : keepsRecord s (respond v s) := ⟨rfl, rfl⟩

theorem keepsRecord_deliver (vs : List Word) (s : State) : keepsRecord s (deliver vs s) := ⟨rfl, rfl⟩

/-- The rounds are passed over as a function `f`: comparing the states themselves would compute them. -/
theorem keepsRecord_applyRound (f : Block → Block) (s : State) : keepsRecord s (applyRound f s) :=
  ⟨applyRound_ERR s f, applyRound_CAUSE s f⟩

/-- A violation recorded after at most a word returned or operations issued. -/
theorem RecordEffect.of_raiseViolation {u : State} {c : Violation} (table : commits i s c) (h : keepsEngine s u) :
    RecordEffect i s (raiseViolation c u) := by
  obtain ⟨data, seq, -⟩ := OnlyRecords.of_raiseViolation c h
  obtain ⟨-, -, err, cause⟩ := h
  exact .violation c table ⟨raiseViolation_ERR u c, by rw [raiseViolation_CAUSE, err, cause]⟩ data seq

theorem RecordEffect.of_writeStateReg (j : Fin 16) (v : Word) (ops : List HostOp)
    (op : (∃ j v, i = .wrState j v) ∨ (∃ ws, i = .loadstate ws) ∨ ∃ c, i = .setctr c) :
    RecordEffect i s (writeStateReg j v (issue ops s)) := by
  obtain ⟨_, e⟩ | ⟨busy, e⟩ := writeStateReg_cases j v (issue ops s) <;> rw [e]
  · exact .kept ⟨rfl, rfl⟩
  · exact .of_raiseViolation ⟨busy, op⟩ (keepsEngine_issue ops s)

theorem RecordEffect.of_startTransform (ops : List HostOp) (op : i = .start ∨ i = .runblock) :
    RecordEffect i s (startTransform (issue ops s)) := by
  obtain ⟨_, e⟩ | ⟨busy, e⟩ := startTransform_cases (issue ops s) <;> rw [e]
  · exact .kept ⟨rfl, rfl⟩
  · exact .of_raiseViolation ⟨busy, op⟩ (keepsEngine_issue ops s)

theorem RecordEffect.of_readOutReg (j : Fin 16) (ops : List HostOp) (op : (∃ j, i = .rdOut j) ∨ i = .readout) :
    RecordEffect i s (readOutReg j (issue ops s)) := by
  obtain ⟨_, e⟩ | ⟨notDone, e⟩ := readOutReg_cases j (issue ops s) <;> rw [e]
  · exact .kept ⟨rfl, rfl⟩
  · exact .of_raiseViolation ⟨notDone, op⟩ (keepsEngine_issue ops s)

theorem RecordEffect.of_run {t u : State} (run : exec i s = .next u) (h : exec i s = .next t) (effect : RecordEffect i s u) :
    RecordEffect i s t :=
  Host.Outcome.next.inj (run.symm.trans h) ▸ effect

theorem recordEffect_of_exec {t : State} (h : exec i s = .next t) : RecordEffect i s t := by
  cases i with
  | wrState j v => exact .of_run rfl h <| .of_writeStateReg j v [] (.inl ⟨j, v, rfl⟩)
  | loadstate ws => exact .of_run rfl h <| .of_writeStateReg 0 _ _ (.inr (.inl ⟨ws, rfl⟩))
  | setctr c => exact .of_run rfl h <| .of_writeStateReg 12 c [] (.inr (.inr ⟨c, rfl⟩))
  | start => exact .of_run rfl h <| .of_startTransform [] (.inl rfl)
  | runblock => exact .of_run rfl h <| .of_startTransform [.poll, .readout] (.inr rfl)
  | rdOut j => exact .of_run rfl h <| .of_readOutReg j [] (.inl ⟨j, rfl⟩)
  | readout => exact .of_run rfl h <| .of_readOutReg 0 readoutRest (.inr rfl)
  | wrOut j v => exact .of_run rfl h <| .of_raiseViolation (.inl ⟨j, v, rfl⟩) (keepsEngine_refl s)
  | wrStatus v => exact .of_run rfl h <| .of_raiseViolation (.inr ⟨v, rfl⟩) (keepsEngine_refl s)
  | rdRsvd a => exact .of_run rfl h <| .of_raiseViolation (.inl ⟨a, rfl⟩) (keepsEngine_respond 0 s)
  | wrRsvd a v => exact .of_run rfl h <| .of_raiseViolation (.inr ⟨a, v, rfl⟩) (keepsEngine_refl s)
  | reset => exact .of_run rfl h <| .cleared rfl (resetEngine_ERR s) (resetEngine_CAUSE s)
  | colround k => exact .of_run (exec_colround s k) h <| .kept (keepsRecord_ite _ (keepsRecord_applyRound _ s) ⟨rfl, rfl⟩)
  | diaground k => exact .of_run (exec_diaground s k) h <| .kept (keepsRecord_ite _ (keepsRecord_applyRound _ s) ⟨rfl, rfl⟩)
  | finaladd => exact .of_run (exec_finaladd s) h <| .kept (keepsRecord_ite _ ⟨rfl, rfl⟩ ⟨rfl, rfl⟩)
  | eRound =>
    refine .of_run (exec_eRound s) h <| .kept (keepsRecord_ite _ ?_ ⟨rfl, rfl⟩)
    exact keepsRecord_ite _ (keepsRecord_applyRound _ s) (keepsRecord_applyRound _ s)
  | eFinal => exact .of_run (exec_eFinal s) h <| .kept (keepsRecord_ite _ ⟨rfl, rfl⟩ ⟨rfl, rfl⟩)
  | poll => exact .of_run (exec_poll s) h <| .kept (keepsRecord_ite _ ⟨rfl, rfl⟩ ⟨rfl, rfl⟩)
  | seqRsvd => cases h
  | rotl32 v n =>
    by_cases hn : 0 < n ∧ n < 32
    · exact .of_run ((exec_rotl32 s v n).trans (if_pos hn)) h <| .kept (keepsRecord_deliver _ s)
    · rw [exec_rotl32, if_neg hn] at h
      cases h
  | rdState | rdCtrl | rdStatus => exact .of_run rfl h <| .kept (keepsRecord_respond _ s)
  | wrCtrlNop | copy => exact .of_run rfl h <| .kept ⟨rfl, rfl⟩
  | add32 | xor32 | qr | round | doubleround | rounds | block | bswap32 =>
    exact .of_run rfl h <| .kept (keepsRecord_deliver _ s)

end

/-- A violation newly recorded is one the operation commits: its code is in CAUSE, and the rest of the engine is kept. -/
theorem commits_of_newly_recorded {i : Instr} {s t : State} (h : exec i s = .next t) (clean : s.ERR = false)
    (recorded : t.ERR = true) :
    ∃ c, commits i s c ∧ t.CAUSE = c.code ∧ keepsData s t ∧ keepsSequencer s t := by
  cases recordEffect_of_exec h with
  | kept record =>
    obtain ⟨err, -⟩ := record
    simp [clean, recorded] at err
  | violation c table record data seq =>
    obtain ⟨-, cause⟩ := record
    exact ⟨c, table, by rw [cause, clean, cond_false], data, seq⟩
  | cleared _ err _ => simp [recorded] at err

/-- Settles O20: an operation keeps the record, or adds a violation to it and so keeps the first cause, or is RESET. -/
theorem onlyResetClearsTheRecord : Obligations.OnlyResetClearsTheRecord := by
  refine ⟨fun i s t h recorded notReset => ?_, fun s t h => ?_⟩
  · cases recordEffect_of_exec h with
    | kept record =>
      obtain ⟨err, cause⟩ := record
      exact ⟨err.trans recorded, cause⟩
    | violation c _ record =>
      obtain ⟨err, cause⟩ := record
      exact ⟨err, by rw [cause, recorded, cond_true]⟩
    | cleared op => exact absurd op notReset
  · obtain rfl := Host.Outcome.next.inj h
    exact ⟨resetEngine_ERR s, resetEngine_CAUSE s⟩

/-- Settles O21: the violation newly recorded is one the operation commits, and the five rows of `commits` are the table's. -/
theorem causesAreThoseOfTheTable : Obligations.CausesAreThoseOfTheTable := by
  intro i s t h clean recorded
  obtain ⟨c, table, cause, -⟩ := commits_of_newly_recorded h clean recorded
  cases c with
  | wrStateBusy => exact .inl ⟨cause, table⟩
  | startBusy => exact .inr (.inl ⟨cause, table⟩)
  | rdOutNotDone => exact .inr (.inr (.inl ⟨cause, table⟩))
  | wrReadOnly => exact .inr (.inr (.inr (.inl ⟨cause, table⟩)))
  | reservedAddr => exact .inr (.inr (.inr (.inr ⟨cause, table⟩)))

/-- Settles O22: an operation that records a violation keeps the rest of the engine. -/
theorem violationsDisturbNothing : Obligations.ViolationsDisturbNothing := by
  intro i s t h clean recorded
  obtain ⟨_, _, _, data, seq⟩ := commits_of_newly_recorded h clean recorded
  exact ⟨data, seq⟩

end Sys2Proof.Machine
end

section
/-! PROOFS. 70_reset_and_hazards: the control state that RESET leaves behind (R250). -/

namespace Sys2Proof.Machine

/-- Settles O31: RESET completes with `resetEngine s`, in which each of the five control fields is cleared. -/
theorem resetClearsTheControlState : Obligations.ResetClearsTheControlState := fun s =>
  ⟨resetEngine s, exec_reset s, resetEngine_BUSY s, resetEngine_DONE s, resetEngine_ERR s, resetEngine_CAUSE s, resetEngine_rnd s⟩

end Sys2Proof.Machine
end
